-- ==== Sys2Proof/Word.lean ====
section
/-! DEFINITION. The word types of the core (R10, R12): every value is an unsigned bit vector of a fixed width. -/

namespace Sys2Proof

/-- A register, a data byte, a byte of a snapshot (R20, R55). -/
abbrev Byte := BitVec 8

/-- A divisor, a phase, an operand field, a tick count (R10, R26, R70). -/
abbrev U32 := BitVec 32

/-- A transaction word `TW` (R70). -/
abbrev TxnWord := BitVec 64

/-- What ADVANCE returns (R216). -/
abbrev Sample := BitVec 16

/-- A register index, 0..15 (R53); also the selection latch (R23). -/
abbrev RegIdx := Fin 16

/-- A channel position: 0, 1, 2 for A, B, C (glossary of 00_scope). -/
abbrev Chan := Fin 3

/-- The register file `R[0..15]` (R20). -/
abbrev RegFile := Vector Byte 16

end Sys2Proof
end

