-- ==== Sys2Proof/Config.lean ====
section
/-! DEFINITION. What is fixed for one machine and is no state (R10, R11). -/

namespace Sys2Proof.Config

/-- Ticks per unit of frequency value, in every generator (R10). -/
def scale : Nat := 32

/-- `T_WF_MAX`, the largest tick count an ADVANCE may carry (R11). -/
def tWfMax : Nat := 0xFFDFFFFF

/-- Which of the 131071 allowed seeds this machine has. The spec leaves `NOISE_SEED` open (R11, D3), so nothing
is known of it. UNVERIFIED, log 1. -/
opaque noiseSeedIndex : Fin 131071

/-- `NOISE_SEED`, in 1..0x1FFFF (R11): the shift register at construction. -/
def noiseSeed : BitVec 17 := BitVec.ofNat 17 (noiseSeedIndex.val + 1)

end Sys2Proof.Config
end

