-- ==== Sys2Proof/Syntax.lean ====
section
/-! DEFINITION. The host transactions of the core, one constructor per row of spec/opcode_table.json, and the form
in which the host issues one (R70, R71). -/

namespace Sys2Proof

/-- A decoded host transaction. WRITE and READ are decoded a second time by `sel` (R80), so each has one
constructor per index (log 7). The two reserved rows carry what they were decoded from (log 19). -/
inductive Instr where
  /-- `SEL n` (R170). -/
  | sel (n : Byte)
  /-- `WR.SEL0`: WRITE with `sel` = 0 (R176, R80). -/
  | wrSel0 (v : Byte)
  /-- `WR.SEL1`: WRITE with `sel` = 1 (R176, R80). -/
  | wrSel1 (v : Byte)
  /-- `WR.SEL2`: WRITE with `sel` = 2 (R176, R80). -/
  | wrSel2 (v : Byte)
  /-- `WR.SEL3`: WRITE with `sel` = 3 (R176, R80). -/
  | wrSel3 (v : Byte)
  /-- `WR.SEL4`: WRITE with `sel` = 4 (R176, R80). -/
  | wrSel4 (v : Byte)
  /-- `WR.SEL5`: WRITE with `sel` = 5 (R176, R80). -/
  | wrSel5 (v : Byte)
  /-- `WR.SEL6`: WRITE with `sel` = 6 (R176, R80). -/
  | wrSel6 (v : Byte)
  /-- `WR.SEL7`: WRITE with `sel` = 7 (R176, R80). -/
  | wrSel7 (v : Byte)
  /-- `WR.SEL8`: WRITE with `sel` = 8 (R176, R80). -/
  | wrSel8 (v : Byte)
  /-- `WR.SEL9`: WRITE with `sel` = 9 (R176, R80). -/
  | wrSel9 (v : Byte)
  /-- `WR.SEL10`: WRITE with `sel` = 10 (R176, R80). -/
  | wrSel10 (v : Byte)
  /-- `WR.SEL11`: WRITE with `sel` = 11 (R176, R80). -/
  | wrSel11 (v : Byte)
  /-- `WR.SEL12`: WRITE with `sel` = 12 (R176, R80). -/
  | wrSel12 (v : Byte)
  /-- `WR.SEL13`: WRITE with `sel` = 13 (R176, R80). -/
  | wrSel13 (v : Byte)
  /-- `WR.SEL14`: WRITE with `sel` = 14 (R176, R80). -/
  | wrSel14 (v : Byte)
  /-- `WR.SEL15`: WRITE with `sel` = 15 (R176, R80). -/
  | wrSel15 (v : Byte)
  /-- `RD.SEL0`: READ with `sel` = 0 (R173). -/
  | rdSel0
  /-- `RD.SEL1`: READ with `sel` = 1 (R173). -/
  | rdSel1
  /-- `RD.SEL2`: READ with `sel` = 2 (R173). -/
  | rdSel2
  /-- `RD.SEL3`: READ with `sel` = 3 (R173). -/
  | rdSel3
  /-- `RD.SEL4`: READ with `sel` = 4 (R173). -/
  | rdSel4
  /-- `RD.SEL5`: READ with `sel` = 5 (R173). -/
  | rdSel5
  /-- `RD.SEL6`: READ with `sel` = 6 (R173). -/
  | rdSel6
  /-- `RD.SEL7`: READ with `sel` = 7 (R173). -/
  | rdSel7
  /-- `RD.SEL8`: READ with `sel` = 8 (R173). -/
  | rdSel8
  /-- `RD.SEL9`: READ with `sel` = 9 (R173). -/
  | rdSel9
  /-- `RD.SEL10`: READ with `sel` = 10 (R173). -/
  | rdSel10
  /-- `RD.SEL11`: READ with `sel` = 11 (R173). -/
  | rdSel11
  /-- `RD.SEL12`: READ with `sel` = 12 (R173). -/
  | rdSel12
  /-- `RD.SEL13`: READ with `sel` = 13 (R173). -/
  | rdSel13
  /-- `RD.SEL14`: READ with `sel` = 14 (R173). -/
  | rdSel14
  /-- `RD.SEL15`: READ with `sel` = 15 (R173). -/
  | rdSel15
  /-- `ADV t` (R210). -/
  | adv (t : U32)
  /-- `SNAP` (R240). -/
  | snap
  /-- `RST b0 .. b16` (R241); a payload of another length is refused by the transaction itself. -/
  | rst (payload : List Byte)
  /-- `RESERVED.KIND`: a reserved `KIND` (R73). -/
  | reservedKind (kind : Byte) (opnd : U32)
  /-- `RESERVED.RSV`: a reserved bit is 1 (R72). -/
  | reservedRsv (tw : TxnWord)
  deriving DecidableEq, Repr

/-- One call of the host: the word, the payload beside it (R70), and whether it was issued while another
transaction was in progress, which R52 forbids (log 6). -/
structure HostCall where
  tw : TxnWord
  payload : List Byte := []
  overlapping : Bool := false
  deriving DecidableEq, Repr

/-- The pseudo-transactions of R83; they are notation only. -/
inductive Pseudo where
  | wrr (i v : Byte)
  | tone (c : Chan) (f : BitVec 12)
  | noisef (f : BitVec 5)
  | mix (m : Byte)
  | vol (c : Chan) (v : Byte)
  | envf (f : BitVec 16) (s : Byte)
  deriving DecidableEq, Repr

end Sys2Proof
end

