-- ==== Sys2Proof/WellFormed.lean ====
section
/-! DEFINITION. Which terms of `Instr` some transaction word decodes to (`Instr.wf`), and which inputs the host may
give (`Instr.inputsOk`). -/

namespace Sys2Proof

/-- R71, R73: the reserved values of `KIND` are 0x00 and 0x07..0xFF. -/
def kindReserved (kind : Byte) : Bool := kind.toNat = 0 || 7 ≤ kind.toNat

/-- R72: `TW[55:32]` is not 0, or the word's `KIND` leaves an `OPND` bit reserved and that bit is 1. -/
def reservedBitSet (tw : TxnWord) : Bool :=
  tw.extractLsb' 32 24 != 0#24 ||
    match (tw.extractLsb' 56 8).toNat with
    | 1 | 2 => tw.extractLsb' 8 24 != 0#24
    | 3 | 5 | 6 => tw.extractLsb' 0 32 != 0#32
    | _ => false

/-- The term is what some transaction word decodes to. Only the two reserved rows can fail this: every value of the
other rows' operands is encodable, an ADVANCE above `T_WF_MAX` and a payload of any length too, since those are
refused by the transaction and not by decode (R72). -/
def Instr.wf : Instr → Bool
  | .reservedKind kind _ => kindReserved kind
  | .reservedRsv tw => reservedBitSet tw
  | _ => true

/-- The "well-formed byte/tick inputs" of R260: what the host owes (duties 3 and 4 of R293), and no reserved row. -/
def Instr.inputsOk : Instr → Bool
  | .adv t => t.toNat ≤ Config.tWfMax
  | .rst payload => payload.length = 17
  | .reservedKind _ _ => false
  | .reservedRsv _ => false
  | _ => true

end Sys2Proof
end

