-- ==== Sys2Proof/Decode.lean ====
section
/-! DEFINITION. From a transaction word to a transaction and back (R70 to R74, R80), the textual syntax (R82) and
the pseudo-transactions (R83). Decode is total: a reserved word decodes to the row that refuses it by name. -/

namespace Sys2Proof

/-- `KIND` = `TW[63:56]` (R70). -/
def kindOf (tw : TxnWord) : Byte := tw.extractLsb' 56 8

/-- `RSV` = `TW[55:32]` (R70). -/
def rsvOf (tw : TxnWord) : BitVec 24 := tw.extractLsb' 32 24

/-- `OPND` = `TW[31:0]` (R70). -/
def opndOf (tw : TxnWord) : U32 := tw.extractLsb' 0 32

/-- Second-level decode of WRITE by `sel` (R80). -/
def decodeWrite (sel : RegIdx) (v : Byte) : Instr :=
  match sel.val with
  | 0 => .wrSel0 v
  | 1 => .wrSel1 v
  | 2 => .wrSel2 v
  | 3 => .wrSel3 v
  | 4 => .wrSel4 v
  | 5 => .wrSel5 v
  | 6 => .wrSel6 v
  | 7 => .wrSel7 v
  | 8 => .wrSel8 v
  | 9 => .wrSel9 v
  | 10 => .wrSel10 v
  | 11 => .wrSel11 v
  | 12 => .wrSel12 v
  | 13 => .wrSel13 v
  | 14 => .wrSel14 v
  | _ => .wrSel15 v

/-- Second-level decode of READ by `sel` (R80). -/
def decodeRead (sel : RegIdx) : Instr :=
  match sel.val with
  | 0 => .rdSel0
  | 1 => .rdSel1
  | 2 => .rdSel2
  | 3 => .rdSel3
  | 4 => .rdSel4
  | 5 => .rdSel5
  | 6 => .rdSel6
  | 7 => .rdSel7
  | 8 => .rdSel8
  | 9 => .rdSel9
  | 10 => .rdSel10
  | 11 => .rdSel11
  | 12 => .rdSel12
  | 13 => .rdSel13
  | 14 => .rdSel14
  | _ => .rdSel15

/-- R72, with the checks in the order of R263: `RSV`, then `KIND`, then the reserved bits of `OPND`. `sel` is the
second key of WRITE and READ; `payload` is used by RESTORE alone (log 9). -/
def decode (sel : RegIdx) (tw : TxnWord) (payload : List Byte) : Instr :=
  if rsvOf tw != 0#24 then .reservedRsv tw
  else
    match (kindOf tw).toNat with
    | 1 => if tw.extractLsb' 8 24 != 0#24 then .reservedRsv tw else .sel (tw.extractLsb' 0 8)
    | 2 => if tw.extractLsb' 8 24 != 0#24 then .reservedRsv tw else decodeWrite sel (tw.extractLsb' 0 8)
    | 3 => if opndOf tw != 0#32 then .reservedRsv tw else decodeRead sel
    | 4 => .adv (opndOf tw)
    | 5 => if opndOf tw != 0#32 then .reservedRsv tw else .snap
    | 6 => if opndOf tw != 0#32 then .reservedRsv tw else .rst payload
    | _ => .reservedKind (kindOf tw) (opndOf tw)

/-- A byte as the 32 bits of `OPND`: `OPND[31:8]` is 0 (R71). -/
def zext32 (b : Byte) : U32 := b.setWidth 32

/-- The word with this `KIND` and `OPND`, and `RSV` 0 (R70). -/
def opndWord (kind : Byte) (opnd : U32) : TxnWord := kind.setWidth 64 <<< 56 ||| opnd.setWidth 64

/-- The word and payload of a transaction (R71). -/
def encode : Instr → TxnWord × List Byte
  | .sel n => (opndWord 0x01#8 (zext32 n), [])
  | .wrSel0 v => (opndWord 0x02#8 (zext32 v), [])
  | .wrSel1 v => (opndWord 0x02#8 (zext32 v), [])
  | .wrSel2 v => (opndWord 0x02#8 (zext32 v), [])
  | .wrSel3 v => (opndWord 0x02#8 (zext32 v), [])
  | .wrSel4 v => (opndWord 0x02#8 (zext32 v), [])
  | .wrSel5 v => (opndWord 0x02#8 (zext32 v), [])
  | .wrSel6 v => (opndWord 0x02#8 (zext32 v), [])
  | .wrSel7 v => (opndWord 0x02#8 (zext32 v), [])
  | .wrSel8 v => (opndWord 0x02#8 (zext32 v), [])
  | .wrSel9 v => (opndWord 0x02#8 (zext32 v), [])
  | .wrSel10 v => (opndWord 0x02#8 (zext32 v), [])
  | .wrSel11 v => (opndWord 0x02#8 (zext32 v), [])
  | .wrSel12 v => (opndWord 0x02#8 (zext32 v), [])
  | .wrSel13 v => (opndWord 0x02#8 (zext32 v), [])
  | .wrSel14 v => (opndWord 0x02#8 (zext32 v), [])
  | .wrSel15 v => (opndWord 0x02#8 (zext32 v), [])
  | .rdSel0 => (opndWord 0x03#8 0#32, [])
  | .rdSel1 => (opndWord 0x03#8 0#32, [])
  | .rdSel2 => (opndWord 0x03#8 0#32, [])
  | .rdSel3 => (opndWord 0x03#8 0#32, [])
  | .rdSel4 => (opndWord 0x03#8 0#32, [])
  | .rdSel5 => (opndWord 0x03#8 0#32, [])
  | .rdSel6 => (opndWord 0x03#8 0#32, [])
  | .rdSel7 => (opndWord 0x03#8 0#32, [])
  | .rdSel8 => (opndWord 0x03#8 0#32, [])
  | .rdSel9 => (opndWord 0x03#8 0#32, [])
  | .rdSel10 => (opndWord 0x03#8 0#32, [])
  | .rdSel11 => (opndWord 0x03#8 0#32, [])
  | .rdSel12 => (opndWord 0x03#8 0#32, [])
  | .rdSel13 => (opndWord 0x03#8 0#32, [])
  | .rdSel14 => (opndWord 0x03#8 0#32, [])
  | .rdSel15 => (opndWord 0x03#8 0#32, [])
  | .adv t => (opndWord 0x04#8 t, [])
  | .snap => (opndWord 0x05#8 0#32, [])
  | .rst payload => (opndWord 0x06#8 0#32, payload)
  | .reservedKind kind opnd => (opndWord kind opnd, [])
  | .reservedRsv tw => (tw, [])

/-- The value of `sel` a row is decoded under (the row's `state_match`), for the rows that have one (R80). -/
def Instr.selKey : Instr → Option RegIdx
  | .wrSel0 _ => some 0
  | .wrSel1 _ => some 1
  | .wrSel2 _ => some 2
  | .wrSel3 _ => some 3
  | .wrSel4 _ => some 4
  | .wrSel5 _ => some 5
  | .wrSel6 _ => some 6
  | .wrSel7 _ => some 7
  | .wrSel8 _ => some 8
  | .wrSel9 _ => some 9
  | .wrSel10 _ => some 10
  | .wrSel11 _ => some 11
  | .wrSel12 _ => some 12
  | .wrSel13 _ => some 13
  | .wrSel14 _ => some 14
  | .wrSel15 _ => some 15
  | .rdSel0 => some 0
  | .rdSel1 => some 1
  | .rdSel2 => some 2
  | .rdSel3 => some 3
  | .rdSel4 => some 4
  | .rdSel5 => some 5
  | .rdSel6 => some 6
  | .rdSel7 => some 7
  | .rdSel8 => some 8
  | .rdSel9 => some 9
  | .rdSel10 => some 10
  | .rdSel11 => some 11
  | .rdSel12 => some 12
  | .rdSel13 => some 13
  | .rdSel14 => some 14
  | .rdSel15 => some 15
  | .sel _ | .adv _ | .snap | .rst _ | .reservedKind _ _ | .reservedRsv _ => none

/-- The call that the bits of `w` below `nbits` stand for: bits 63..0 are the word, bits 64+8i+7..64+8i are payload
byte i. All 17 payload bytes are laid down (zero above `nbits`), since only RESTORE reads them. DESIGN CHOICE, log 8. -/
def tableCall (nbits w : Nat) : HostCall :=
  let bits := w % 2 ^ nbits
  { tw := BitVec.ofNat 64 bits
    payload := (List.range 17).map fun i => BitVec.ofNat 8 (bits >>> (64 + 8 * i)) }

/-- The decoder on an opcode-table word. A table word holds no `sel`, the second key of WRITE and READ; the key used
here is 0, the value of `sel` at construction (R41). DESIGN CHOICE, log 7. -/
def decodeTableWord (nbits w : Nat) : Option Instr :=
  some (decode 0 (tableCall nbits w).tw (tableCall nbits w).payload)

/-- `SEL n` as the host issues it (R82). -/
def selCall (n : Byte) : HostCall := { tw := opndWord 0x01#8 (zext32 n) }

/-- `WR v` as the host issues it (R82). -/
def wrCall (v : Byte) : HostCall := { tw := opndWord 0x02#8 (zext32 v) }

/-- The expansions of R83. -/
def Pseudo.expand : Pseudo → List HostCall
  | .wrr i v => [selCall i, wrCall v]
  | .tone c f =>
    [selCall (BitVec.ofNat 8 (2 * c.val)), wrCall (f.extractLsb' 0 8),
     selCall (BitVec.ofNat 8 (2 * c.val + 1)), wrCall ((f.extractLsb' 8 4).setWidth 8)]
  | .noisef f => [selCall 6, wrCall (f.setWidth 8)]
  | .mix m => [selCall 7, wrCall m]
  | .vol c v => [selCall (BitVec.ofNat 8 (8 + c.val)), wrCall v]
  | .envf f s =>
    [selCall 11, wrCall (f.extractLsb' 0 8), selCall 12, wrCall (f.extractLsb' 8 8), selCall 13, wrCall s]

/-- The textual syntax of R82, with numbers in decimal (R12). R82 gives ADV a text up to `T_WF_MAX` and RST one for
17 bytes; that an ADV above the bound, an RST of another length and the reserved rows have none is the model's.
DESIGN CHOICE, log 18. -/
def Instr.text : Instr → Option String
  | .sel n => some ("SEL " ++ toString n.toNat)
  | .wrSel0 v => some ("WR " ++ toString v.toNat)
  | .wrSel1 v => some ("WR " ++ toString v.toNat)
  | .wrSel2 v => some ("WR " ++ toString v.toNat)
  | .wrSel3 v => some ("WR " ++ toString v.toNat)
  | .wrSel4 v => some ("WR " ++ toString v.toNat)
  | .wrSel5 v => some ("WR " ++ toString v.toNat)
  | .wrSel6 v => some ("WR " ++ toString v.toNat)
  | .wrSel7 v => some ("WR " ++ toString v.toNat)
  | .wrSel8 v => some ("WR " ++ toString v.toNat)
  | .wrSel9 v => some ("WR " ++ toString v.toNat)
  | .wrSel10 v => some ("WR " ++ toString v.toNat)
  | .wrSel11 v => some ("WR " ++ toString v.toNat)
  | .wrSel12 v => some ("WR " ++ toString v.toNat)
  | .wrSel13 v => some ("WR " ++ toString v.toNat)
  | .wrSel14 v => some ("WR " ++ toString v.toNat)
  | .wrSel15 v => some ("WR " ++ toString v.toNat)
  | .rdSel0 => some "RD"
  | .rdSel1 => some "RD"
  | .rdSel2 => some "RD"
  | .rdSel3 => some "RD"
  | .rdSel4 => some "RD"
  | .rdSel5 => some "RD"
  | .rdSel6 => some "RD"
  | .rdSel7 => some "RD"
  | .rdSel8 => some "RD"
  | .rdSel9 => some "RD"
  | .rdSel10 => some "RD"
  | .rdSel11 => some "RD"
  | .rdSel12 => some "RD"
  | .rdSel13 => some "RD"
  | .rdSel14 => some "RD"
  | .rdSel15 => some "RD"
  | .adv t => if t.toNat ≤ Config.tWfMax then some ("ADV " ++ toString t.toNat) else none
  | .snap => some "SNAP"
  | .rst payload =>
    if payload.length = 17 then some (payload.foldl (fun text b => text ++ " " ++ toString b.toNat) "RST") else none
  | .reservedKind _ _ | .reservedRsv _ => none

end Sys2Proof
end

