-- ==== Sys2Proof/Machine/State.lean ====
section
/-! DEFINITION. The state of the core as plain data (10_state), the reasons a step can stop, and construction. -/

namespace Sys2Proof.Machine

/-- A tone oscillator (R26). -/
structure Tone where
  divisor : U32
  phase : U32
  deriving DecidableEq, Repr

/-- The noise LFSR engine (R29). -/
structure Noise where
  divisor : U32
  phase : U32
  shift : BitVec 17
  level : Bool
  deriving DecidableEq, Repr

/-- The 8 canonical envelope shapes (R140). -/
inductive Shape where
  | lowerHoldLow | raiseHoldLow | lowerLoop | lowerRaiseLoop
  | lowerHoldHigh | raiseLoop | raiseHoldHigh | raiseLowerLoop
  deriving DecidableEq, Repr

/-- The envelope's current segment (R32). -/
inductive Block where
  | high | low | raise | lower
  deriving DecidableEq, Repr

/-- The envelope FSM; `step` is 0..16 (R32). -/
structure Env where
  divisor : U32
  phase : U32
  shape : Shape
  step : Fin 17
  block : Block
  deriving DecidableEq, Repr

/-- What a transaction hands back to the host: the "result to host" column of R71. -/
inductive HostResult where
  /-- No result: SELECT, WRITE, RESTORE. -/
  | nothing
  /-- READ's 8-bit register value (R173). -/
  | byte (b : Byte)
  /-- ADVANCE's sample (R216). -/
  | sample (v : Sample)
  /-- SNAPSHOT's 17 bytes (R240). -/
  | blob (bytes : Vector Byte 17)
  deriving DecidableEq, Repr

/-- The core raises no exception and has no trap (R260, R267), so no step faults and there is no reason to name.
Nothing raises one: safe (log 15). -/
inductive Fault
  deriving DecidableEq, Repr

/-- The model refusals of R262. A refused transaction changes no state. -/
inductive Refusal where
  /-- An arm of `exec` without a meaning, by its mnemonic. Raised by no arm of this model. Safe: the machine stops. -/
  | notModelled (mnemonic : String)
  /-- A reserved bit of the transaction word is 1. Raised by the row `RESERVED.RSV` (R72). Safe. -/
  | reservedBits
  /-- `KIND` is 0x00 or 0x07..0xFF. Raised by the row `RESERVED.KIND` (R72, R73). Safe. -/
  | reservedKind
  /-- `t > T_WF_MAX`. Raised by `ADV` (R210). Safe. -/
  | tickRange
  /-- The payload is not 17 bytes long. Raised by `RST` (R241). Safe. -/
  | malformedBlob
  /-- The call overlaps another. Raised by `step`, before decoding (R266, log 6). Safe. -/
  | hostDuty
  deriving DecidableEq, Repr

/-- All the state of the core, `(R[0..15], sel, TONE[0..2], NOISE, ENV)`, then the sticky mark of R262, the position
of R35, and what stands between the core and its host: the calls not yet issued and the last result. -/
structure State where
  /-- `R[0..15]` (R20). -/
  regs : RegFile
  /-- The selection latch (R23), held in the 4 bits R23 allows (log 17). -/
  sel : RegIdx
  /-- `TONE[0..2]` (R26). -/
  tone : Vector Tone 3
  /-- `NOISE` (R29). -/
  noise : Noise
  /-- `ENV` (R32). -/
  env : Env
  /-- The sticky mark of R262: the first refusal of the host's sequence. `State.turn` sets it (log 5). -/
  refused : Option Refusal
  /-- The index in the host transaction sequence (R35). -/
  pos : Nat
  /-- The host's transactions from position `pos` on, in the order of issue (R50). The host's, not the core's: the
  core holds no queue (R51). DESIGN CHOICE, log 2. -/
  pending : List HostCall
  /-- What the last completed transaction returned (R71). DESIGN CHOICE, log 4. -/
  result : HostResult
  deriving DecidableEq, Repr

/-- Construction (R40 to R45) with a given `NOISE_SEED`. -/
def State.construct (seed : BitVec 17) : State where
  regs := Vector.replicate 16 0x00
  sel := 0
  tone := #v[⟨32, 0⟩, ⟨32, 0⟩, ⟨32, 0⟩]
  noise := { divisor := 32, phase := 0, shift := seed, level := false }
  env := { divisor := 32, phase := 0, shape := .lowerHoldLow, step := 0, block := .lower }
  refused := none
  pos := 0
  pending := []
  result := .nothing

/-- The only reset is construction (R290), with this machine's `NOISE_SEED` (R11, R43; log 1). -/
def State.reset : State := State.construct Config.noiseSeed

end Sys2Proof.Machine
end

