-- ==== Sys2Proof/Machine/Operands.lean ====
section
/-! DEFINITION. The operand forms: the fields of the registers (R75 to R79), the read masks (R174), the write effects
by index (R80), the shape table (R140) and the volume table (R215). -/

namespace Sys2Proof.Machine

/-- `TONE_F(c)`: the low 4 bits of `R[2c+1]` above `R[2c]` (R75). -/
def toneF (r : RegFile) (c : Chan) : BitVec 12 :=
  (r[2 * c.val + 1].extractLsb' 0 4 ++ r[2 * c.val] : BitVec (4 + 8))

/-- `TONE_FC(c)`, clamped 0→1 (R75). -/
def toneFC (r : RegFile) (c : Chan) : Nat := max (toneF r c).toNat 1

/-- `NOISE_F`: the low 5 bits of `R[6]` (R76). -/
def noiseF (r : RegFile) : BitVec 5 := r[6].extractLsb' 0 5

/-- `NOISE_FC`, clamped 0→1 (R76). -/
def noiseFC (r : RegFile) : Nat := max (noiseF r).toNat 1

/-- `ENV_F`: `R[12]` above `R[11]` (R77). -/
def envF (r : RegFile) : BitVec 16 := (r[12] ++ r[11] : BitVec (8 + 8))

/-- `ENV_FC`, clamped 0→1 (R77). -/
def envFC (r : RegFile) : Nat := max (envF r).toNat 1

/-- The shape code: the low nibble of the shape byte (R77, R140). -/
def shapeCode (shapeByte : Byte) : BitVec 4 := shapeByte.extractLsb' 0 4

/-- `TONE_EN(c)`: bit c of `R[7]` is 0 (R78). -/
def toneEn (r : RegFile) (c : Chan) : Bool := !r[7].getLsbD c.val

/-- `NOISE_EN(c)`: bit 3+c of `R[7]` is 0 (R78). -/
def noiseEn (r : RegFile) (c : Chan) : Bool := !r[7].getLsbD (3 + c.val)

/-- `VOL_ENV(c)`: bit 4 of `R[8+c]` is 1 (R79). -/
def volEnv (r : RegFile) (c : Chan) : Bool := r[8 + c.val].getLsbD 4

/-- `VOL_FIXED(c)`: the low 4 bits of `R[8+c]` (R79). -/
def volFixed (r : RegFile) (c : Chan) : BitVec 4 := r[8 + c.val].extractLsb' 0 4

/-- `READ_MASK` by index 0..15 (R174). -/
def readMaskTable : Vector Byte 16 :=
  #v[0xFF#8, 0x0F#8, 0xFF#8, 0x0F#8, 0xFF#8, 0x0F#8, 0x1F#8, 0xFF#8, 0x1F#8, 0x1F#8, 0x1F#8, 0xFF#8, 0xFF#8, 0x0F#8, 0xFF#8, 0xFF#8]

/-- `READ_MASK(i)` (R174). -/
def readMask (i : RegIdx) : Byte := readMaskTable[i]

/-- What a WRITE does beside storing the byte (R80). -/
inductive WriteEffect where
  | restartTone (c : Chan)
  | setNoise
  | restartEnv
  | storeOnly
  deriving DecidableEq, Repr

/-- The write effects by index 0..15 (R80, R176). -/
def writeEffectTable : Vector WriteEffect 16 :=
  #v[.restartTone 0, .restartTone 0, .restartTone 1, .restartTone 1, .restartTone 2, .restartTone 2, .setNoise,
     .storeOnly, .storeOnly, .storeOnly, .storeOnly, .restartEnv, .restartEnv, .restartEnv, .storeOnly, .storeOnly]

/-- The write effect of index i (R80). -/
def writeEffect (i : RegIdx) : WriteEffect := writeEffectTable[i]

/-- The canonical shapes by shape code 0x0..0xF (R140). -/
def shapeTable : Vector Shape 16 :=
  #v[.lowerHoldLow, .lowerHoldLow, .lowerHoldLow, .lowerHoldLow,
     .raiseHoldLow, .raiseHoldLow, .raiseHoldLow, .raiseHoldLow,
     .lowerLoop, .lowerHoldLow, .lowerRaiseLoop, .lowerHoldHigh,
     .raiseLoop, .raiseHoldHigh, .raiseLowerLoop, .raiseHoldLow]

/-- `SHAPE_OF_CODE` (R140). -/
def shapeOfCode (code : BitVec 4) : Shape := shapeTable[code.toFin]

/-- `INITIAL_BLOCK` (R140). -/
def initialBlock : Shape → Block
  | .lowerHoldLow | .lowerLoop | .lowerRaiseLoop | .lowerHoldHigh => .lower
  | .raiseHoldLow | .raiseLoop | .raiseHoldHigh | .raiseLowerLoop => .raise

/-- `VOL_TABLE` (R215). -/
def volTable : Vector Nat 16 :=
  #v[5, 7, 12, 20, 33, 55, 91, 150, 247, 408, 672, 1109, 1828, 3014, 4969, 8192]

/-- `VOL_TABLE[i]` (R215). -/
def volume (i : BitVec 4) : Nat := volTable[i.toFin]

end Sys2Proof.Machine
end

