-- ==== Sys2Proof/Machine/Flags.lean ====
section
/-! DEFINITION. The core has no flags (R36). Its only Boolean outputs, computed inside ADVANCE and kept nowhere, are
the tone bit, the noise bit and the combined bit. -/

namespace Sys2Proof.Machine

/-- The tone bit: the phase is in the first half of the cycle (R101). -/
def Tone.bit (g : Tone) : Bool := g.phase.toNat < g.divisor.toNat / 2

/-- The noise bit is the toggled level, not a bit of the shift register (R123). -/
def Noise.bit (g : Noise) : Bool := g.level

/-- `COMBINED`, the mixer truth table (R213). -/
def combined (toneEnabled noiseEnabled toneBit noiseBit : Bool) : Bool :=
  match toneEnabled, noiseEnabled with
  | true, true => toneBit && noiseBit
  | true, false => toneBit
  | false, true => noiseBit
  | false, false => true

end Sys2Proof.Machine
end

