-- ==== Sys2Proof/Machine/Ops.lean ====
section
/-! DEFINITION. The shared operations: period reduction (R102), the generators' operations (R100 to R146), the access
operations of the register file and the latch (R170 to R180), the host's side of a transaction. There is no exception
to take and none to return from (R260, R267, R268). -/

namespace Sys2Proof.Machine

/-- The phase after all period crossings, in the loop-free form of R102: `p` is the phase with `t` added, `d` the
divisor. `d` is never 0 in a run (log 10). -/
def reducedPhase (p d : Nat) : Nat := if p = 0 then 0 else (p - 1) % d + 1

/-- The number of period crossings (R102). -/
def crossings (p d : Nat) : Nat := (p - 1) / d

/-- `TONE[c].set_frequency(f)` (R100). -/
def Tone.setFrequency (f : Nat) : Tone := { divisor := BitVec.ofNat 32 (Config.scale * f), phase := 0 }

/-- `TONE[c].advance(t)` (R101, R102); its result is the tone bit of the state it leaves. -/
def Tone.advance (t : Nat) (g : Tone) : Tone :=
  { g with phase := BitVec.ofNat 32 (reducedPhase (g.phase.toNat + t) g.divisor.toNat) }

/-- `NOISE.set_frequency(f)`: the divisor and nothing else (R120). -/
def Noise.setFrequency (f : Nat) (g : Noise) : Noise :=
  { g with divisor := BitVec.ofNat 32 (Config.scale * max f 1) }

/-- One LFSR step: both bits are taken first, then bit 16 is set, then the register shifts (R122). -/
def Noise.lfsrStep (g : Noise) : Noise :=
  let b0 := g.shift.getLsbD 0
  let b3 := g.shift.getLsbD 3
  { g with
    level := g.level ^^ b0
    shift := (if b0 ^^ b3 then g.shift ||| 0x10000#17 else g.shift) >>> 1 }

/-- `n` LFSR steps in order. -/
def Noise.lfsrSteps : Nat → Noise → Noise
  | 0, g => g
  | n + 1, g => Noise.lfsrSteps n g.lfsrStep

/-- `NOISE.advance(t)`: one LFSR step per period crossing (R121). -/
def Noise.advance (t : Nat) (g : Noise) : Noise :=
  let p := g.phase.toNat + t
  let d := g.divisor.toNat
  { Noise.lfsrSteps (crossings p d) g with phase := BitVec.ofNat 32 (reducedPhase p d) }

/-- `ENV.set_freq_shape(f, s)` (R142). -/
def Env.setFreqShape (f : Nat) (shapeByte : Byte) : Env :=
  let shape := shapeOfCode (shapeCode shapeByte)
  { divisor := BitVec.ofNat 32 (Config.scale * f), phase := 0, step := 0, shape, block := initialBlock shape }

/-- `NEXT_BLOCK` (R141, R144). An alternating shape in `high` or `low` is unreachable and keeps its block (log 12). -/
def nextBlock : Shape → Block → Block
  | .lowerHoldLow, _ => .low
  | .raiseHoldLow, _ => .low
  | .lowerHoldHigh, _ => .high
  | .raiseHoldHigh, _ => .high
  | .lowerLoop, _ => .lower
  | .raiseLoop, _ => .raise
  | .lowerRaiseLoop, .lower => .raise
  | .lowerRaiseLoop, .raise => .lower
  | .raiseLowerLoop, .lower => .raise
  | .raiseLowerLoop, .raise => .lower
  | .lowerRaiseLoop, .high => .high
  | .lowerRaiseLoop, .low => .low
  | .raiseLowerLoop, .high => .high
  | .raiseLowerLoop, .low => .low

/-- `NEXT_BLOCK` applied `n` times. -/
def blockAfter (shape : Shape) : Nat → Block → Block
  | 0, b => b
  | n + 1, b => blockAfter shape n (nextBlock shape b)

/-- `ENV.advance(t)` in the loop-free form of R146; its result is the level of the state it leaves (R143). -/
def Env.advance (t : Nat) (g : Env) : Env :=
  let p := g.phase.toNat + t
  let d := g.divisor.toNat
  let k := g.step.val + crossings p d
  { g with
    phase := BitVec.ofNat 32 (reducedPhase p d)
    step := ⟨k % 16, by omega⟩
    block := blockAfter g.shape (k / 16) g.block }

/-- `LEVEL(block, step)`, 4 bits (R145). -/
def Env.level (g : Env) : BitVec 4 :=
  match g.block with
  | .low => 0
  | .high => 15
  | .raise => BitVec.ofNat 4 g.step.val
  | .lower => BitVec.ofNat 4 (15 - g.step.val)

/-- `R[i] <- v`: the full byte (R21). -/
def State.setReg (i : RegIdx) (v : Byte) (s : State) : State := { s with regs := s.regs.set i.val v i.isLt }

/-- Replace oscillator c. -/
def State.setTone (c : Chan) (g : Tone) (s : State) : State := { s with tone := s.tone.set c.val g c.isLt }

/-- Replace the noise engine. -/
def State.setNoise (g : Noise) (s : State) : State := { s with noise := g }

/-- Replace the envelope. -/
def State.setEnv (g : Env) (s : State) : State := { s with env := g }

/-- `return v` (R13): hand a result to the host. -/
def State.setResult (r : HostResult) (s : State) : State := { s with result := r }

/-- SELECT's effect: an index above 15 changes nothing (R170). -/
def State.select (n : Byte) (s : State) : State :=
  if h : n.toNat < 16 then { s with sel := ⟨n.toNat, h⟩ } else s

/-- The side effect of a WRITE, computed from the registers as they now stand (R177 to R180). -/
def State.applyEffect (e : WriteEffect) (s : State) : State :=
  match e with
  | .restartTone c => s.setTone c (Tone.setFrequency (toneFC s.regs c))
  | .setNoise => s.setNoise (s.noise.setFrequency (noiseFC s.regs))
  | .restartEnv => s.setEnv (Env.setFreqShape (envFC s.regs) s.regs[13])
  | .storeOnly => s

/-- WRITE at a given index: store first, then recompute unconditionally (R176, R181). -/
def State.writeAt (i : RegIdx) (v : Byte) (s : State) : State := (s.setReg i v).applyEffect (writeEffect i)

/-- WRITE at the selected index (R176). -/
def State.write (v : Byte) (s : State) : State := s.writeAt s.sel v

/-- READ at a given index: the stored byte, masked on the way out (R173, R174). -/
def State.readAt (i : RegIdx) (s : State) : Byte := s.regs[i] &&& readMask i

/-- SNAPSHOT's bytes: `sel`, then the registers as stored (R240). -/
def State.blob (s : State) : Vector Byte 17 :=
  #v[BitVec.ofNat 8 s.sel.val, s.regs[0], s.regs[1], s.regs[2], s.regs[3], s.regs[4], s.regs[5], s.regs[6], s.regs[7],
     s.regs[8], s.regs[9], s.regs[10], s.regs[11], s.regs[12], s.regs[13], s.regs[14], s.regs[15]]

/-- RESTORE's replay from index i on: SELECT(i), WRITE of the next byte (R241). -/
def State.replay : Nat → List Byte → State → State
  | _, [], s => s
  | i, b :: bytes, s => State.replay (i + 1) bytes ((s.select (BitVec.ofNat 8 i)).write b)

/-- RESTORE's effect: replay the bytes after the first, then SELECT the first (R241). -/
def State.restore (payload : List Byte) (s : State) : State :=
  match payload with
  | [] => s
  | b :: bytes => (State.replay 0 bytes s).select b

/-- The refusal codes of R262; the one refusal that is not the spec's has none. -/
def Refusal.code : Refusal → Option Nat
  | .reservedBits => some 1
  | .reservedKind => some 2
  | .tickRange => some 3
  | .malformedBlob => some 4
  | .hostDuty => some 5
  | _ => none

/-- The next call of the host, if it has one. -/
def State.nextCall (s : State) : Option HostCall := s.pending.head?

/-- The host's sequence moves past one transaction (R35, R50). -/
def State.consume (s : State) : State := { s with pending := s.pending.tail, pos := s.pos + 1 }

/-- Nothing is issued: all state is kept (R276). DESIGN CHOICE, log 3. -/
def State.idle (s : State) : State := s

/-- The host broke the serialisation duty of R52 with this call (R266, log 6). -/
def breaksDuty (c : HostCall) : Bool := c.overlapping

/-- The sticky mark of R262: the first refusal stays; the host's sequence moves on and nothing else changes (log 5). -/
def State.markRefused (r : Refusal) (s : State) : State := { s.consume with refused := s.refused.or (some r) }

/-- Place a call where the next step takes it from. -/
def State.placeCall (c : HostCall) (s : State) : State := { s with pending := c :: s.pending.tail }

end Sys2Proof.Machine
end

