-- ==== Sys2Proof/Machine/Advance.lean ====
section
/-! DEFINITION. ADVANCE: the generators, the mixer and the volume table (R210 to R219). -/

namespace Sys2Proof.Machine

/-- Some channel's noise path is enabled (R212). -/
def noiseWanted (r : RegFile) : Bool := noiseEn r 0 || noiseEn r 1 || noiseEn r 2

/-- R212: the noise engine advances only while some channel uses it (R126); each tone and the envelope always do. -/
def State.advanceGenerators (t : Nat) (s : State) : State :=
  { s with
    noise := if noiseWanted s.regs then s.noise.advance t else s.noise
    tone := #v[s.tone[0].advance t, s.tone[1].advance t, s.tone[2].advance t]
    env := s.env.advance t }

/-- The volume index of channel c, given the envelope level (R214). -/
def volumeIndex (r : RegFile) (c : Chan) (level : BitVec 4) : BitVec 4 := if volEnv r c then level else volFixed r c

/-- What channel c adds to the sample (R213 to R216). -/
def channelTerm (r : RegFile) (c : Chan) (toneBit noiseBit : Bool) (level : BitVec 4) : Nat :=
  if combined (toneEn r c) (noiseEn r c) toneBit noiseBit then volume (volumeIndex r c level) else 0

/-- The sum over the three channels, from the generators as they now stand (R216). -/
def State.mix (s : State) : Nat :=
  channelTerm s.regs 0 s.tone[0].bit s.noise.bit s.env.level +
  channelTerm s.regs 1 s.tone[1].bit s.noise.bit s.env.level +
  channelTerm s.regs 2 s.tone[2].bit s.noise.bit s.env.level

/-- Hand the sample of the generators as they now stand to the host (R216). -/
def State.returnSample (s : State) : State := s.setResult (.sample (BitVec.ofNat 16 s.mix))

/-- `ADV t` (R210): refused above `T_WF_MAX`; the registers and `sel` are never written. -/
def execAdv (t : U32) (s : State) : Host.Outcome State Fault Refusal :=
  if Config.tWfMax < t.toNat then .refused .tickRange
  else .next (s.advanceGenerators t.toNat).returnSample

end Sys2Proof.Machine
end

