-- ==== Sys2Proof/Machine/Persist.lean ====
section
/-! DEFINITION. SNAPSHOT and RESTORE (R240 to R243). -/

namespace Sys2Proof.Machine

/-- `SNAP` (R240): writes no state. -/
def execSnap (s : State) : Host.Outcome State Fault Refusal := .next (s.setResult (.blob s.blob))

/-- `RST b0 .. b16` (R241): a payload of another length is refused. -/
def execRst (payload : List Byte) (s : State) : Host.Outcome State Fault Refusal :=
  if payload.length = 17 then .next ((s.restore payload).setResult .nothing) else .refused .malformedBlob

end Sys2Proof.Machine
end

