-- ==== Sys2Proof/Machine/Read.lean ====
section
/-! DEFINITION. READ, one meaning per index (R173 to R175); it has no side effect (R60). -/

namespace Sys2Proof.Machine

/-- `RD.SEL0`: returns `R[0] & 0xFF` (R173, R174). -/
def execRdSel0 (s : State) : Host.Outcome State Fault Refusal := .next (s.setResult (.byte (s.readAt 0)))

/-- `RD.SEL1`: returns `R[1] & 0x0F` (R173, R174). -/
def execRdSel1 (s : State) : Host.Outcome State Fault Refusal := .next (s.setResult (.byte (s.readAt 1)))

/-- `RD.SEL2`: returns `R[2] & 0xFF` (R173, R174). -/
def execRdSel2 (s : State) : Host.Outcome State Fault Refusal := .next (s.setResult (.byte (s.readAt 2)))

/-- `RD.SEL3`: returns `R[3] & 0x0F` (R173, R174). -/
def execRdSel3 (s : State) : Host.Outcome State Fault Refusal := .next (s.setResult (.byte (s.readAt 3)))

/-- `RD.SEL4`: returns `R[4] & 0xFF` (R173, R174). -/
def execRdSel4 (s : State) : Host.Outcome State Fault Refusal := .next (s.setResult (.byte (s.readAt 4)))

/-- `RD.SEL5`: returns `R[5] & 0x0F` (R173, R174). -/
def execRdSel5 (s : State) : Host.Outcome State Fault Refusal := .next (s.setResult (.byte (s.readAt 5)))

/-- `RD.SEL6`: returns `R[6] & 0x1F` (R173, R174). -/
def execRdSel6 (s : State) : Host.Outcome State Fault Refusal := .next (s.setResult (.byte (s.readAt 6)))

/-- `RD.SEL7`: returns `R[7] & 0xFF` (R173, R174). -/
def execRdSel7 (s : State) : Host.Outcome State Fault Refusal := .next (s.setResult (.byte (s.readAt 7)))

/-- `RD.SEL8`: returns `R[8] & 0x1F` (R173, R174). -/
def execRdSel8 (s : State) : Host.Outcome State Fault Refusal := .next (s.setResult (.byte (s.readAt 8)))

/-- `RD.SEL9`: returns `R[9] & 0x1F` (R173, R174). -/
def execRdSel9 (s : State) : Host.Outcome State Fault Refusal := .next (s.setResult (.byte (s.readAt 9)))

/-- `RD.SEL10`: returns `R[10] & 0x1F` (R173, R174). -/
def execRdSel10 (s : State) : Host.Outcome State Fault Refusal := .next (s.setResult (.byte (s.readAt 10)))

/-- `RD.SEL11`: returns `R[11] & 0xFF` (R173, R174). -/
def execRdSel11 (s : State) : Host.Outcome State Fault Refusal := .next (s.setResult (.byte (s.readAt 11)))

/-- `RD.SEL12`: returns `R[12] & 0xFF` (R173, R174). -/
def execRdSel12 (s : State) : Host.Outcome State Fault Refusal := .next (s.setResult (.byte (s.readAt 12)))

/-- `RD.SEL13`: returns `R[13] & 0x0F` (R173, R174). -/
def execRdSel13 (s : State) : Host.Outcome State Fault Refusal := .next (s.setResult (.byte (s.readAt 13)))

/-- `RD.SEL14`: returns `R[14] & 0xFF` (R173, R174). -/
def execRdSel14 (s : State) : Host.Outcome State Fault Refusal := .next (s.setResult (.byte (s.readAt 14)))

/-- `RD.SEL15`: returns `R[15] & 0xFF` (R173, R174). -/
def execRdSel15 (s : State) : Host.Outcome State Fault Refusal := .next (s.setResult (.byte (s.readAt 15)))

end Sys2Proof.Machine
end

