-- ==== Sys2Proof/Machine/Reserved.lean ====
section
/-! DEFINITION. The reserved words: refused by name, no state changed (R72, R73, R262). -/

namespace Sys2Proof.Machine

/-- `RESERVED.KIND` (R73). -/
def execReservedKind (_kind : Byte) (_opnd : U32) (_s : State) : Host.Outcome State Fault Refusal :=
  .refused .reservedKind

/-- `RESERVED.RSV` (R72, R73). -/
def execReservedRsv (_tw : TxnWord) (_s : State) : Host.Outcome State Fault Refusal := .refused .reservedBits

end Sys2Proof.Machine
end

