-- ==== Sys2Proof/Machine/Select.lean ====
section
/-! DEFINITION. SELECT (R170). -/

namespace Sys2Proof.Machine

/-- `SEL n`: an index above 15 is a legal no-op (R170). -/
def execSel (n : Byte) (s : State) : Host.Outcome State Fault Refusal := .next ((s.select n).setResult .nothing)

end Sys2Proof.Machine
end

