-- ==== Sys2Proof/Machine/Write.lean ====
section
/-! DEFINITION. WRITE, one meaning per index (R176 to R181). The row's index is the value of `sel` that decode read
(R80); a meaning acts on that index in every state (log 7). -/

namespace Sys2Proof.Machine

/-- `WR.SEL0`: restarts tone A (R176, R177). -/
def execWrSel0 (v : Byte) (s : State) : Host.Outcome State Fault Refusal :=
  .next ((s.writeAt 0 v).setResult .nothing)

/-- `WR.SEL1`: restarts tone A (R176, R177). -/
def execWrSel1 (v : Byte) (s : State) : Host.Outcome State Fault Refusal :=
  .next ((s.writeAt 1 v).setResult .nothing)

/-- `WR.SEL2`: restarts tone B (R176, R177). -/
def execWrSel2 (v : Byte) (s : State) : Host.Outcome State Fault Refusal :=
  .next ((s.writeAt 2 v).setResult .nothing)

/-- `WR.SEL3`: restarts tone B (R176, R177). -/
def execWrSel3 (v : Byte) (s : State) : Host.Outcome State Fault Refusal :=
  .next ((s.writeAt 3 v).setResult .nothing)

/-- `WR.SEL4`: restarts tone C (R176, R177). -/
def execWrSel4 (v : Byte) (s : State) : Host.Outcome State Fault Refusal :=
  .next ((s.writeAt 4 v).setResult .nothing)

/-- `WR.SEL5`: restarts tone C (R176, R177). -/
def execWrSel5 (v : Byte) (s : State) : Host.Outcome State Fault Refusal :=
  .next ((s.writeAt 5 v).setResult .nothing)

/-- `WR.SEL6`: sets the noise divisor (R176, R178). -/
def execWrSel6 (v : Byte) (s : State) : Host.Outcome State Fault Refusal :=
  .next ((s.writeAt 6 v).setResult .nothing)

/-- `WR.SEL7`: stores only (mixer) (R176, R180). -/
def execWrSel7 (v : Byte) (s : State) : Host.Outcome State Fault Refusal :=
  .next ((s.writeAt 7 v).setResult .nothing)

/-- `WR.SEL8`: stores only (volume A) (R176, R180). -/
def execWrSel8 (v : Byte) (s : State) : Host.Outcome State Fault Refusal :=
  .next ((s.writeAt 8 v).setResult .nothing)

/-- `WR.SEL9`: stores only (volume B) (R176, R180). -/
def execWrSel9 (v : Byte) (s : State) : Host.Outcome State Fault Refusal :=
  .next ((s.writeAt 9 v).setResult .nothing)

/-- `WR.SEL10`: stores only (volume C) (R176, R180). -/
def execWrSel10 (v : Byte) (s : State) : Host.Outcome State Fault Refusal :=
  .next ((s.writeAt 10 v).setResult .nothing)

/-- `WR.SEL11`: restarts the envelope (R176, R179). -/
def execWrSel11 (v : Byte) (s : State) : Host.Outcome State Fault Refusal :=
  .next ((s.writeAt 11 v).setResult .nothing)

/-- `WR.SEL12`: restarts the envelope (R176, R179). -/
def execWrSel12 (v : Byte) (s : State) : Host.Outcome State Fault Refusal :=
  .next ((s.writeAt 12 v).setResult .nothing)

/-- `WR.SEL13`: restarts the envelope (R176, R179). -/
def execWrSel13 (v : Byte) (s : State) : Host.Outcome State Fault Refusal :=
  .next ((s.writeAt 13 v).setResult .nothing)

/-- `WR.SEL14`: stores only (inert port register) (R176, R180). -/
def execWrSel14 (v : Byte) (s : State) : Host.Outcome State Fault Refusal :=
  .next ((s.writeAt 14 v).setResult .nothing)

/-- `WR.SEL15`: stores only (inert port register) (R176, R180). -/
def execWrSel15 (v : Byte) (s : State) : Host.Outcome State Fault Refusal :=
  .next ((s.writeAt 15 v).setResult .nothing)

end Sys2Proof.Machine
end

