-- ==== Sys2Proof/Machine/Dispatch.lean ====
section
/-! DEFINITION. The meaning of every transaction: one arm per constructor of `Instr`. -/

namespace Sys2Proof.Machine

/-- Run one decoded transaction. -/
def exec (i : Instr) (s : State) : Host.Outcome State Fault Refusal :=
    match i with
    | .sel n => Sys2Proof.Machine.execSel n s
    | .wrSel0 v => Sys2Proof.Machine.execWrSel0 v s
    | .wrSel1 v => Sys2Proof.Machine.execWrSel1 v s
    | .wrSel2 v => Sys2Proof.Machine.execWrSel2 v s
    | .wrSel3 v => Sys2Proof.Machine.execWrSel3 v s
    | .wrSel4 v => Sys2Proof.Machine.execWrSel4 v s
    | .wrSel5 v => Sys2Proof.Machine.execWrSel5 v s
    | .wrSel6 v => Sys2Proof.Machine.execWrSel6 v s
    | .wrSel7 v => Sys2Proof.Machine.execWrSel7 v s
    | .wrSel8 v => Sys2Proof.Machine.execWrSel8 v s
    | .wrSel9 v => Sys2Proof.Machine.execWrSel9 v s
    | .wrSel10 v => Sys2Proof.Machine.execWrSel10 v s
    | .wrSel11 v => Sys2Proof.Machine.execWrSel11 v s
    | .wrSel12 v => Sys2Proof.Machine.execWrSel12 v s
    | .wrSel13 v => Sys2Proof.Machine.execWrSel13 v s
    | .wrSel14 v => Sys2Proof.Machine.execWrSel14 v s
    | .wrSel15 v => Sys2Proof.Machine.execWrSel15 v s
    | .rdSel0 => Sys2Proof.Machine.execRdSel0 s
    | .rdSel1 => Sys2Proof.Machine.execRdSel1 s
    | .rdSel2 => Sys2Proof.Machine.execRdSel2 s
    | .rdSel3 => Sys2Proof.Machine.execRdSel3 s
    | .rdSel4 => Sys2Proof.Machine.execRdSel4 s
    | .rdSel5 => Sys2Proof.Machine.execRdSel5 s
    | .rdSel6 => Sys2Proof.Machine.execRdSel6 s
    | .rdSel7 => Sys2Proof.Machine.execRdSel7 s
    | .rdSel8 => Sys2Proof.Machine.execRdSel8 s
    | .rdSel9 => Sys2Proof.Machine.execRdSel9 s
    | .rdSel10 => Sys2Proof.Machine.execRdSel10 s
    | .rdSel11 => Sys2Proof.Machine.execRdSel11 s
    | .rdSel12 => Sys2Proof.Machine.execRdSel12 s
    | .rdSel13 => Sys2Proof.Machine.execRdSel13 s
    | .rdSel14 => Sys2Proof.Machine.execRdSel14 s
    | .rdSel15 => Sys2Proof.Machine.execRdSel15 s
    | .adv t => Sys2Proof.Machine.execAdv t s
    | .snap => Sys2Proof.Machine.execSnap s
    | .rst payload => Sys2Proof.Machine.execRst payload s
    | .reservedKind kind opnd => Sys2Proof.Machine.execReservedKind kind opnd s
    | .reservedRsv tw => Sys2Proof.Machine.execReservedRsv tw s

end Sys2Proof.Machine
end

