-- ==== Sys2Proof/Machine/Step.lean ====
section
/-! DEFINITION. One step: the host's next transaction, taken whole (R50). -/

namespace Sys2Proof.Machine

/-- Take the host's next call, refuse it if it overlaps another (R266), decode it by its word and by `sel` (R72, R80)
and run it. With no call the state is kept (R276). -/
def step (s : State) : Host.Outcome State Fault Refusal :=
  match s.nextCall with
  | none => .next s.idle
  | some call =>
    if breaksDuty call then .refused .hostDuty else exec (decode s.sel call.tw call.payload) s.consume

/-- `s` with the table word `w` as the host's next call (log 8). -/
def State.withFetchWord (s : State) (nbits w : Nat) : State := s.placeCall (tableCall nbits w)

end Sys2Proof.Machine
end

