-- ==== Sys2Proof/Safety.lean ====
section
/-! DEFINITION. The invariant of the core's state (R23, R27 to R33), what the core part of a state is, and what a safe
run is: one in which nothing was refused (R262). -/

namespace Sys2Proof.Machine

/-- A shape that never settles: it stays in `raise` and `lower` (R33, R141). -/
def Shape.loops : Shape → Bool
  | .lowerLoop | .lowerRaiseLoop | .raiseLoop | .raiseLowerLoop => true
  | .lowerHoldLow | .raiseHoldLow | .lowerHoldHigh | .raiseHoldHigh => false

/-- R27, R28: the divisor is what the channel's registers give; the phase does not pass it. -/
structure ToneInv (r : RegFile) (c : Chan) (g : Tone) : Prop where
  divisor : g.divisor.toNat = 32 * toneFC r c
  phase : g.phase.toNat ≤ g.divisor.toNat

/-- R30, R31: the divisor is what `R[6]` gives, the phase is at most 992 (it may pass the divisor until the next
advance), the register is not 0. -/
structure NoiseInv (r : RegFile) (g : Noise) : Prop where
  divisor : g.divisor.toNat = 32 * noiseFC r
  phase : g.phase.toNat ≤ 992
  shift : g.shift ≠ 0

/-- R33: divisor and shape are what `R[11..13]` give, the phase does not pass the divisor, the step is 0..15, and a
looping shape is in `raise` or `lower`. -/
structure EnvInv (r : RegFile) (g : Env) : Prop where
  divisor : g.divisor.toNat = 32 * envFC r
  phase : g.phase.toNat ≤ g.divisor.toNat
  shape : g.shape = shapeOfCode (shapeCode r[13])
  step : g.step.val ≤ 15
  block : g.shape.loops = true → g.block = .raise ∨ g.block = .lower

/-- The invariant between host transactions (R27 to R33). `sel <= 15` (R23) holds by the type of `sel`. -/
structure State.Inv (s : State) : Prop where
  tone : ∀ c : Chan, ToneInv s.regs c s.tone[c]
  noise : NoiseInv s.regs s.noise
  env : EnvInv s.regs s.env

/-- The two states agree on all the state the core has (head of 10_state): registers, latch, generators. -/
structure SameCore (s t : State) : Prop where
  regs : s.regs = t.regs
  sel : s.sel = t.sel
  tone : s.tone = t.tone
  noise : s.noise = t.noise
  env : s.env = t.env

/-- One turn of the host's sequence: a refused transaction leaves the sticky mark and changes nothing else of the
core (R262, log 5). -/
def State.turn (s : State) : State :=
  match step s with
  | .next t => t
  | .fault _ => s
  | .refused r => s.markRefused r

/-- `n` turns. -/
def State.turns : Nat → State → State
  | 0, s => s
  | n + 1, s => State.turns n s.turn

/-- The premise R262 asks of every claim about a run: no refusal in `n` turns. -/
def SafeRun (n : Nat) (s : State) : Prop := (State.turns n s).refused = none

end Sys2Proof.Machine
end

