-- ==== Sys2Proof/Certificates/Slice0/Obligations.lean ====
section
/-! DEFINITION. The statements for the provers. Each docstring names the rules of spec/ it formalises; a clause that
rests on a decision of the spec (D<n>) or on a choice of the model (log <n>) says so. -/

namespace Sys2Proof.Claims

open Sys2Proof.Machine

/-- `32 × max(f, 1)` with f the 12-bit value of a tone pair (R75, R100). -/
def toneDivisor (fine coarse : Byte) : U32 :=
  BitVec.ofNat 32 (32 * max (fine.toNat + 256 * (coarse.toNat % 16)) 1)

/-- `32 × max(f, 1)` with f the 5-bit noise value (R76, R120). -/
def noiseDivisor (v : Byte) : U32 := BitVec.ofNat 32 (32 * max (v.toNat % 32) 1)

/-- `32 × max(f, 1)` with f the 16-bit value of the envelope pair (R77, R142). -/
def envDivisor (fine coarse : Byte) : U32 := BitVec.ofNat 32 (32 * max (fine.toNat + 256 * coarse.toNat) 1)

/-- The state `set_freq_shape` leaves, from the bytes of `R[11]`, `R[12]` and `R[13]` (R142, R179). -/
def envRestarted (fine coarse shapeByte : Byte) : Env where
  divisor := envDivisor fine coarse
  phase := 0
  shape := shapeOfCode (BitVec.ofNat 4 shapeByte.toNat)
  step := 0
  block := initialBlock (shapeOfCode (BitVec.ofNat 4 shapeByte.toNat))

/-- The body of the envelope's reduction loop, as R143 writes it. -/
def envCrossing (g : Env) : Env :=
  if g.step.val + 1 = 16 then { g with step := 0, block := nextBlock g.shape g.block }
  else { g with step := Fin.ofNat 17 (g.step.val + 1) }

/-- `L(k)`, the level k period crossings after `set_freq_shape` (R148). -/
def levelSequence : Shape → Nat → Nat
  | .lowerHoldLow, k => if k ≤ 15 then 15 - k else 0
  | .raiseHoldLow, k => if k ≤ 15 then k else 0
  | .lowerHoldHigh, k => if k ≤ 15 then 15 - k else 15
  | .raiseHoldHigh, k => if k ≤ 15 then k else 15
  | .lowerLoop, k => 15 - k % 16
  | .raiseLoop, k => k % 16
  | .lowerRaiseLoop, k => if k % 32 ≤ 15 then 15 - k % 32 else k % 32 - 16
  | .raiseLowerLoop, k => if k % 32 ≤ 15 then k % 32 else 31 - k % 32

/-- Bit n of register i is 0. -/
abbrev bitClear (r : RegFile) (i : RegIdx) (n : Nat) : Prop := r[i].toNat / 2 ^ n % 2 = 0

/-- No channel's noise path is enabled: bits 3, 4 and 5 of `R[7]` are all 1 (R126). -/
abbrev noiseUnused (r : RegFile) : Prop := ¬bitClear r 7 3 ∧ ¬bitClear r 7 4 ∧ ¬bitClear r 7 5

/-- What channel c adds, said from the register bits (R78, R79, R213 to R215): it is silent when an enabled path's
bit is false. -/
def channelAdds (r : RegFile) (c : Chan) (toneBit noiseBit : Bool) (level : BitVec 4) : Nat :=
  let v := r[8 + c.val].toNat
  if (bitClear r 7 c.val → toneBit = true) ∧ (bitClear r 7 (3 + c.val) → noiseBit = true) then
    volume (if v / 16 % 2 = 1 then level else BitVec.ofNat 4 (v % 16))
  else 0

/-- The bits of each register that reach a generator or the mixer (R24): what READ returns, less the unused bits of
the mixer and the port registers. -/
def soundMask (i : RegIdx) : Byte := if i.val = 7 then 0x3F else if 14 ≤ i.val then 0x00 else readMask i

/-- The two register files differ only in bits that have no effect on sound. -/
def SameSound (r r' : RegFile) : Prop := ∀ i : RegIdx, r[i] &&& soundMask i = r'[i] &&& soundMask i

/-- A SELECT, WRITE or READ as the host issues it. -/
def registerAccess (c : HostCall) : Prop :=
  (∃ n : Byte, c = selCall n) ∨ (∃ v : Byte, c = wrCall v) ∨ c = { tw := 0x0300000000000000 }

end Sys2Proof.Claims

section

open Sys2Proof Sys2Proof.Machine Sys2Proof.Claims

/-! Construction. -/

/-- R40, R42: every register is 0x00, every tone has divisor 32 and phase 0. -/
def Obligations.ConstructionRegistersAndTones : Prop :=
  (∀ i : RegIdx, State.reset.regs[i] = 0x00) ∧
  ∀ c : Chan, State.reset.tone[c].divisor = 32 ∧ State.reset.tone[c].phase = 0

/-- R41, R43, R44: these values are the spec's decisions D3 to D6; the seed is any value R11 allows (log 1). -/
def Obligations.ConstructionDecidedValues : Prop :=
  State.reset.sel = 0 ∧
  State.reset.noise = { divisor := 32, phase := 0, shift := Config.noiseSeed, level := false } ∧
  (1 ≤ Config.noiseSeed.toNat ∧ Config.noiseSeed.toNat ≤ 0x1FFFF) ∧
  State.reset.env = { divisor := 32, phase := 0, shape := .lowerHoldLow, step := 0, block := .lower } ∧
  State.reset.env.level = 15 ∧
  State.reset.env = Env.setFreqShape 1 0x00

/-- R292: up to 32 ticks after construction no crossing has happened, so with any seed the sample is 0 (with the
noise level of D4). -/
def Obligations.ConstructionIsSilent : Prop :=
  ∀ (seed : BitVec 17) (t : U32), t.toNat ≤ 32 →
    ∃ u, exec (.adv t) (State.construct seed) = .next u ∧ u.result = .sample 0 ∧ u.noise.level = false

/-! Encoding. -/

/-- Words written out from R71 and R82 decode to what they stand for. -/
def Obligations.WordsDecode : Prop :=
  decode 0 0x010000000000000D [] = .sel 13 ∧
  decode 5 0x02000000000000A5 [] = .wrSel5 0xA5 ∧
  decode 13 0x0300000000000000 [] = .rdSel13 ∧
  decode 0 0x04000000FFDFFFFF [] = .adv 0xFFDFFFFF ∧
  decode 0 0x0500000000000000 [] = .snap ∧
  decode 0 0x0600000000000000 [7, 8] = .rst [7, 8] ∧
  decode 0 0x0700000000000000 [] = .reservedKind 0x07 0 ∧
  decode 0 0x0701000000000000 [] = .reservedRsv 0x0701000000000000

/-- R70 to R72, R80: decoding an encoded well-formed transaction under its `sel` gives it back. -/
def Obligations.DecodeEncodeRoundTrip : Prop :=
  ∀ (i : Instr) (sel : RegIdx), i.wf = true → (∀ k, i.selKey = some k → sel = k) →
    decode sel (encode i).1 (encode i).2 = i

/-- R72, R80: decode is total, answers a well-formed transaction keyed by the `sel` it was given, and drops no bit
of the word. A payload beside a word that is not RESTORE's is ignored, which is log 9. -/
def Obligations.EncodeDecodeRoundTrip : Prop :=
  ∀ (sel : RegIdx) (tw : TxnWord) (payload : List Byte),
    (decode sel tw payload).wf = true ∧
    (encode (decode sel tw payload)).1 = tw ∧
    (∀ k, (decode sel tw payload).selKey = some k → k = sel) ∧
    (∀ p, decode sel tw payload = .rst p → p = payload)

/-! The step. -/

/-- R50, R72, R80: a call that breaks no duty is decoded by its word and by `sel`, and its transaction is run. Around
it the step only moves the host's sequence on by one (R35; log 2). -/
def Obligations.StepRunsDecodedTransaction : Prop :=
  ∀ (s : State) (c : HostCall) (rest : List HostCall) (i : Instr),
    s.pending = c :: rest → c.overlapping = false → decode s.sel c.tw c.payload = i →
      step s = exec i { s with pending := rest, pos := s.pos + 1 }

/-- R276: with no transaction issued all state is kept (that such a step exists is log 3). -/
def Obligations.StepWithoutCallKeepsState : Prop := ∀ s : State, s.pending = [] → step s = .next s

/-- R266: an overlapping call is refused `HostDuty`, whatever its word (the overlap mark is log 6). -/
def Obligations.OverlappingCallIsRefused : Prop :=
  ∀ (s : State) (c : HostCall) (rest : List HostCall),
    s.pending = c :: rest → c.overlapping = true → step s = .refused .hostDuty

/-- R72, R260, R262, R263 (D1, D10, D13, D25): which refusal a word gets, in the order of R263, and that every other
transaction completes. That it does so whatever payload stands beside a word that is not RESTORE's is log 9. -/
def Obligations.RefusalOrderAndCompletion : Prop :=
  ∀ (s : State) (c : HostCall) (rest : List HostCall), s.pending = c :: rest → c.overlapping = false →
    let kind := c.tw.toNat / 2 ^ 56
    let rsv := c.tw.toNat / 2 ^ 32 % 2 ^ 24
    let opnd := c.tw.toNat % 2 ^ 32
    let opndReserved := ((kind = 1 ∨ kind = 2) ∧ opnd / 256 ≠ 0) ∨ ((kind = 3 ∨ kind = 5 ∨ kind = 6) ∧ opnd ≠ 0)
    (rsv ≠ 0 → step s = .refused .reservedBits) ∧
    (rsv = 0 → kind = 0 ∨ 7 ≤ kind → step s = .refused .reservedKind) ∧
    (rsv = 0 → opndReserved → step s = .refused .reservedBits) ∧
    (rsv = 0 → kind = 4 → 0xFFDFFFFF < opnd → step s = .refused .tickRange) ∧
    (rsv = 0 → kind = 6 → opnd = 0 → c.payload.length ≠ 17 → step s = .refused .malformedBlob) ∧
    (rsv = 0 → 1 ≤ kind ∧ kind ≤ 6 → ¬opndReserved → (kind = 4 → opnd ≤ 0xFFDFFFFF) →
      (kind = 6 → c.payload.length = 17) → ∃ t, step s = .next t)

/-- R50, R35: every transaction that completes takes exactly one call off the host's sequence, and none touches the
sticky mark (R262). -/
def Obligations.StepConsumesOneCall : Prop :=
  ∀ (s t : State) (c : HostCall) (rest : List HostCall), s.pending = c :: rest → step s = .next t →
    t.pending = rest ∧ t.pos = s.pos + 1 ∧ t.refused = s.refused

/-- R73: the two reserved rows are refused by name in every state. -/
def Obligations.ReservedRowsAreRefused : Prop :=
  ∀ (kind : Byte) (opnd : U32) (tw : TxnWord) (s : State),
    exec (.reservedKind kind opnd) s = .refused .reservedKind ∧ exec (.reservedRsv tw) s = .refused .reservedBits

/-! SELECT, READ, WRITE. -/

/-- R170, R72: SELECT and its encoding (D1); an index above 15 changes nothing. The word is read the same whatever
payload stands beside it, which is log 9. -/
def Obligations.SelectResult : Prop :=
  ∀ (n : Byte) (s : State) (k : RegIdx) (payload : List Byte),
    decode k (BitVec.ofNat 64 (0x0100000000000000 + n.toNat)) payload = .sel n ∧
    exec (.sel n) s =
      .next { s with sel := if n.toNat ≤ 15 then Fin.ofNat 16 n.toNat else s.sel, result := .nothing }

/-- R174: the read mask of every index. Nothing but the result changes. -/
def Obligations.ReadMaskOfEveryIndex : Prop :=
  ∀ s : State,
    exec .rdSel0 s = .next { s with result := .byte s.regs[0] } ∧
    exec .rdSel1 s = .next { s with result := .byte (s.regs[1] &&& 0x0F) } ∧
    exec .rdSel2 s = .next { s with result := .byte s.regs[2] } ∧
    exec .rdSel3 s = .next { s with result := .byte (s.regs[3] &&& 0x0F) } ∧
    exec .rdSel4 s = .next { s with result := .byte s.regs[4] } ∧
    exec .rdSel5 s = .next { s with result := .byte (s.regs[5] &&& 0x0F) } ∧
    exec .rdSel6 s = .next { s with result := .byte (s.regs[6] &&& 0x1F) } ∧
    exec .rdSel7 s = .next { s with result := .byte s.regs[7] } ∧
    exec .rdSel8 s = .next { s with result := .byte (s.regs[8] &&& 0x1F) } ∧
    exec .rdSel9 s = .next { s with result := .byte (s.regs[9] &&& 0x1F) } ∧
    exec .rdSel10 s = .next { s with result := .byte (s.regs[10] &&& 0x1F) } ∧
    exec .rdSel11 s = .next { s with result := .byte s.regs[11] } ∧
    exec .rdSel12 s = .next { s with result := .byte s.regs[12] } ∧
    exec .rdSel13 s = .next { s with result := .byte (s.regs[13] &&& 0x0F) } ∧
    exec .rdSel14 s = .next { s with result := .byte s.regs[14] } ∧
    exec .rdSel15 s = .next { s with result := .byte s.regs[15] }

/-- R173, R72: the word `RD` (D1) reads the selected register through its mask (that READ has no operand of its own is
D22) and writes no state of the core. That it does so whatever payload stands beside it is log 9; the move of `pending`
and `pos` (R35) is log 2. -/
def Obligations.ReadAtSelection : Prop :=
  ∀ (s : State) (payload : List Byte) (rest : List HostCall),
    s.pending = { tw := 0x0300000000000000, payload } :: rest →
      step s = .next { s with
        pending := rest, pos := s.pos + 1, result := .byte (s.regs[s.sel] &&& readMask s.sel) }

/-- R177, R100: a WRITE to either register of a tone pair stores the byte and restarts that tone with the value of
the whole pair; nothing else changes. -/
def Obligations.WriteTonePair : Prop :=
  ∀ (v : Byte) (s : State),
    exec (.wrSel0 v) s = .next { s with
      regs := s.regs.set 0 v, tone := s.tone.set 0 ⟨toneDivisor v s.regs[1], 0⟩, result := .nothing } ∧
    exec (.wrSel1 v) s = .next { s with
      regs := s.regs.set 1 v, tone := s.tone.set 0 ⟨toneDivisor s.regs[0] v, 0⟩, result := .nothing } ∧
    exec (.wrSel2 v) s = .next { s with
      regs := s.regs.set 2 v, tone := s.tone.set 1 ⟨toneDivisor v s.regs[3], 0⟩, result := .nothing } ∧
    exec (.wrSel3 v) s = .next { s with
      regs := s.regs.set 3 v, tone := s.tone.set 1 ⟨toneDivisor s.regs[2] v, 0⟩, result := .nothing } ∧
    exec (.wrSel4 v) s = .next { s with
      regs := s.regs.set 4 v, tone := s.tone.set 2 ⟨toneDivisor v s.regs[5], 0⟩, result := .nothing } ∧
    exec (.wrSel5 v) s = .next { s with
      regs := s.regs.set 5 v, tone := s.tone.set 2 ⟨toneDivisor s.regs[4] v, 0⟩, result := .nothing }

/-- R178, R120: a WRITE to register 6 stores the byte and sets the noise divisor. That phase, shift and level are kept
is the spec's decision D9. -/
def Obligations.WriteNoiseFrequency : Prop :=
  ∀ (v : Byte) (s : State),
    exec (.wrSel6 v) s = .next { s with
      regs := s.regs.set 6 v, noise := { s.noise with divisor := noiseDivisor v }, result := .nothing }

/-- R179, R142: a WRITE to register 11, 12 or 13 stores the byte and restarts the envelope with the current pair and
shape; nothing else changes. -/
def Obligations.WriteEnvelope : Prop :=
  ∀ (v : Byte) (s : State),
    exec (.wrSel11 v) s = .next { s with
      regs := s.regs.set 11 v, env := envRestarted v s.regs[12] s.regs[13], result := .nothing } ∧
    exec (.wrSel12 v) s = .next { s with
      regs := s.regs.set 12 v, env := envRestarted s.regs[11] v s.regs[13], result := .nothing } ∧
    exec (.wrSel13 v) s = .next { s with
      regs := s.regs.set 13 v, env := envRestarted s.regs[11] s.regs[12] v, result := .nothing }

/-- R180: a WRITE to register 7, 8, 9, 10, 14 or 15 only stores the byte. -/
def Obligations.WriteStoreOnly : Prop :=
  ∀ (v : Byte) (s : State),
    exec (.wrSel7 v) s = .next { s with regs := s.regs.set 7 v, result := .nothing } ∧
    exec (.wrSel8 v) s = .next { s with regs := s.regs.set 8 v, result := .nothing } ∧
    exec (.wrSel9 v) s = .next { s with regs := s.regs.set 9 v, result := .nothing } ∧
    exec (.wrSel10 v) s = .next { s with regs := s.regs.set 10 v, result := .nothing } ∧
    exec (.wrSel14 v) s = .next { s with regs := s.regs.set 14 v, result := .nothing } ∧
    exec (.wrSel15 v) s = .next { s with regs := s.regs.set 15 v, result := .nothing }

/-- R176, R72: the word `WR v` (D1) stores v at `R[sel]` first, then applies the side effect of that index, computed from
the registers as they then stand, and changes nothing else of the core. That it does so whatever payload stands beside
it is log 9; what the noise `set_frequency` keeps is D9. -/
def Obligations.WriteAtSelection : Prop :=
  ∀ (v : Byte) (s : State) (payload : List Byte) (rest : List HostCall),
    s.pending = { tw := BitVec.ofNat 64 (0x0200000000000000 + v.toNat), payload } :: rest →
    let i := s.sel.val
    ∃ t, step s = .next t ∧
      t.regs = s.regs.set i v s.sel.isLt ∧
      t.tone = (if i = 0 ∨ i = 1 then s.tone.set 0 (Tone.setFrequency (toneFC t.regs 0))
        else if i = 2 ∨ i = 3 then s.tone.set 1 (Tone.setFrequency (toneFC t.regs 1))
        else if i = 4 ∨ i = 5 then s.tone.set 2 (Tone.setFrequency (toneFC t.regs 2))
        else s.tone) ∧
      t.noise = (if i = 6 then s.noise.setFrequency (noiseFC t.regs) else s.noise) ∧
      t.env = (if i = 11 ∨ i = 12 ∨ i = 13 then Env.setFreqShape (envFC t.regs) t.regs[13] else s.env) ∧
      t.sel = s.sel ∧ t.result = .nothing ∧ t.refused = s.refused

/-- R64, R21: READ at index i returns the masked byte of the WRITE to i before it, the register holds the full byte,
and no other register changes. -/
def Obligations.WriteThenRead : Prop :=
  ∀ (i : RegIdx) (v : Byte) (s : State), ∃ t u,
    exec (decodeWrite i v) s = .next t ∧ exec (decodeRead i) t = .next u ∧
    u.result = .byte (v &&& readMask i) ∧ u.regs[i] = v ∧ ∀ j : RegIdx, j ≠ i → u.regs[j] = s.regs[j]

/-- R61: SELECT, READ and SNAPSHOT are idempotent: a second one in a row changes neither state nor result. -/
def Obligations.SelectReadSnapshotIdempotent : Prop :=
  ∀ (n : Byte) (k : RegIdx) (i : Instr), i = .sel n ∨ i = decodeRead k ∨ i = .snap →
    ∀ s : State, ∃ t, exec i s = .next t ∧ exec i t = .next t

/-! Generators. -/

/-- R101: the phase is reduced by one divisor as long as it is above the divisor, n times in all, and the result is
true while it is below half the divisor. -/
def Obligations.ToneAdvanceIsReductionLoop : Prop :=
  ∀ (g : Tone) (t : Nat), 0 < g.divisor.toNat →
    let d := g.divisor.toNat
    let p := g.phase.toNat + t
    ∃ n, (∀ m < n, d < p - m * d) ∧
      (g.advance t).phase.toNat + n * d = p ∧ (g.advance t).phase.toNat ≤ d ∧
      (g.advance t).divisor = g.divisor ∧
      ((g.advance t).bit = true ↔ (g.advance t).phase.toNat < d / 2)

/-- R121: as R101 for the phase, with one LFSR step per period crossing, in order; the result is the level left. -/
def Obligations.NoiseAdvanceIsReductionLoop : Prop :=
  ∀ (g : Noise) (t : Nat), 0 < g.divisor.toNat →
    let d := g.divisor.toNat
    let p := g.phase.toNat + t
    ∃ n, (∀ m < n, d < p - m * d) ∧
      (g.advance t).phase.toNat + n * d = p ∧ (g.advance t).phase.toNat ≤ d ∧
      (g.advance t).divisor = g.divisor ∧
      (g.advance t).shift = (Noise.lfsrStep^[n] g).shift ∧
      (g.advance t).level = (Noise.lfsrStep^[n] g).level ∧
      (g.advance t).bit = (g.advance t).level

/-- R122, read as D24 reads it: the level toggles with bit 0; bits 14..0 take bits 15..1, bit 15 takes the old bit 16
or the feedback, bit 16 is 0. -/
def Obligations.LfsrStepBits : Prop :=
  ∀ g : Noise,
    g.lfsrStep.level = (g.level != g.shift.getLsbD 0) ∧
    (∀ j < 15, g.lfsrStep.shift.getLsbD j = g.shift.getLsbD (j + 1)) ∧
    g.lfsrStep.shift.getLsbD 15 = (g.shift.getLsbD 16 || (g.shift.getLsbD 0 != g.shift.getLsbD 3)) ∧
    g.lfsrStep.shift.getLsbD 16 = false ∧
    g.lfsrStep.divisor = g.divisor ∧ g.lfsrStep.phase = g.phase

/-- R31, R125: a step never makes the register 0, leaves bit 16 clear, and is one to one on the registers with bit 16
clear. -/
def Obligations.LfsrStepPermutes : Prop :=
  (∀ g : Noise, g.shift ≠ 0 → g.lfsrStep.shift ≠ 0 ∧ g.lfsrStep.shift.toNat ≤ 0xFFFF) ∧
  ∀ g h : Noise, g.shift.toNat ≤ 0xFFFF → h.shift.toNat ≤ 0xFFFF →
    g.lfsrStep.shift = h.lfsrStep.shift → g.shift = h.shift

/-- R143 (its strict test is D8): the model's loop-free envelope is R143's loop, one crossing per reduction, from
every state with step 0..15. -/
def Obligations.EnvelopeAdvanceIsReductionLoop : Prop :=
  ∀ (g : Env) (t : Nat), 0 < g.divisor.toNat → g.step.val ≤ 15 →
    let d := g.divisor.toNat
    let p := g.phase.toNat + t
    ∃ n, (∀ m < n, d < p - m * d) ∧
      (g.advance t).phase.toNat + n * d = p ∧ (g.advance t).phase.toNat ≤ d ∧
      g.advance t = { envCrossing^[n] g with phase := (g.advance t).phase }

/-- R140, R141, R145: the shape of every code (the byte's high nibble has no effect), the initial block, the
continuation policy and the level. -/
def Obligations.EnvelopeTables : Prop :=
  (∀ b : Byte, shapeOfCode (shapeCode b) =
    (let code := b.toNat % 16
     if code = 0x8 then .lowerLoop else if code = 0xA then .lowerRaiseLoop
     else if code = 0xB then .lowerHoldHigh else if code = 0xC then .raiseLoop
     else if code = 0xD then .raiseHoldHigh else if code = 0xE then .raiseLowerLoop
     else if code = 0x9 ∨ code ≤ 0x3 then .lowerHoldLow else .raiseHoldLow)) ∧
  (∀ shape : Shape, initialBlock shape =
    if shape = .lowerHoldLow ∨ shape = .lowerLoop ∨ shape = .lowerRaiseLoop ∨ shape = .lowerHoldHigh then .lower
    else .raise) ∧
  (∀ b : Block, nextBlock .lowerHoldLow b = .low ∧ nextBlock .raiseHoldLow b = .low ∧
    nextBlock .lowerHoldHigh b = .high ∧ nextBlock .raiseHoldHigh b = .high ∧
    nextBlock .lowerLoop b = .lower ∧ nextBlock .raiseLoop b = .raise) ∧
  (nextBlock .lowerRaiseLoop .lower = .raise ∧ nextBlock .lowerRaiseLoop .raise = .lower ∧
    nextBlock .raiseLowerLoop .lower = .raise ∧ nextBlock .raiseLowerLoop .raise = .lower) ∧
  (∀ g : Env, g.step.val ≤ 15 → g.level.toNat =
    match g.block with
    | .low => 0
    | .high => 15
    | .raise => g.step.val
    | .lower => 15 - g.step.val)

/-- R148: the level sequence of every shape. After `set_freq_shape` and t ticks, (t - 1) / divisor crossings have
happened (R102). -/
def Obligations.EnvelopeLevelSequence : Prop :=
  ∀ (f : Nat) (b : Byte) (t : Nat), 1 ≤ f → f ≤ 65535 →
    ((Env.setFreqShape f b).advance t).level.toNat =
      levelSequence (shapeOfCode (shapeCode b)) ((t - 1) / (32 * f))

/-- R101, R121, R143: advancing by a and then by b leaves every generator as advancing by a + b. -/
def Obligations.AdvanceComposes : Prop :=
  ∀ a b : Nat,
    (∀ g : Tone, 0 < g.divisor.toNat → (g.advance a).advance b = g.advance (a + b)) ∧
    (∀ g : Noise, 0 < g.divisor.toNat → (g.advance a).advance b = g.advance (a + b)) ∧
    (∀ g : Env, 0 < g.divisor.toNat → g.step.val ≤ 15 → (g.advance a).advance b = g.advance (a + b))

/-! ADVANCE. -/

/-- R213, R215: the mixer truth table and the volume table. -/
def Obligations.MixerAndVolumeTables : Prop :=
  (∀ toneBit noiseBit : Bool,
    combined true true toneBit noiseBit = (toneBit && noiseBit) ∧
    combined true false toneBit noiseBit = toneBit ∧
    combined false true toneBit noiseBit = noiseBit ∧
    combined false false toneBit noiseBit = true) ∧
  (List.range 16).map (fun i => volume (BitVec.ofNat 4 i)) =
    [5, 7, 12, 20, 33, 55, 91, 150, 247, 408, 672, 1109, 1828, 3014, 4969, 8192]

/-- R210 to R214 (mixer bits D7, tick bound D10, level after the advance D11): ADVANCE completes up to `T_WF_MAX`,
advances each tone and the envelope always and the noise engine when some channel uses it, returns the sum of what the
three channels add, and writes nothing else. -/
def Obligations.AdvanceResult : Prop :=
  ∀ (t : U32) (s : State), t.toNat ≤ 0xFFDFFFFF → ∃ u, exec (.adv t) s = .next u ∧
    (noiseUnused s.regs → u.noise = s.noise) ∧
    (¬noiseUnused s.regs → u.noise = s.noise.advance t.toNat) ∧
    (∀ c : Chan, u.tone[c] = s.tone[c].advance t.toNat) ∧
    u.env = s.env.advance t.toNat ∧
    u.result = .sample (BitVec.ofNat 16
      (channelAdds s.regs 0 u.tone[0].bit u.noise.level u.env.level +
       channelAdds s.regs 1 u.tone[1].bit u.noise.level u.env.level +
       channelAdds s.regs 2 u.tone[2].bit u.noise.level u.env.level)) ∧
    u.regs = s.regs ∧ u.sel = s.sel ∧ u.refused = s.refused ∧ u.pos = s.pos ∧ u.pending = s.pending

/-- R216: the sample is the sum over the channels whose combined bit is true, and it never wraps in 16 bits. -/
def Obligations.SampleIsTheSum : Prop :=
  ∀ (t : U32) (s : State), t.toNat ≤ 0xFFDFFFFF → ∃ u v, exec (.adv t) s = .next u ∧ u.result = .sample v ∧
    v.toNat = (((List.finRange 3).filter fun c =>
        combined (toneEn s.regs c) (noiseEn s.regs c) u.tone[c].bit u.noise.bit).map fun c =>
        volume (if volEnv s.regs c then u.env.level else volFixed s.regs c)).sum ∧
    v.toNat ≤ 24576

/-- R210, R262 (D10): an ADVANCE above `T_WF_MAX` is refused. -/
def Obligations.AdvanceAboveBoundIsRefused : Prop :=
  ∀ (t : U32) (s : State), 0xFFDFFFFF < t.toNat → exec (.adv t) s = .refused .tickRange

/-- R126, R303: phase, shift and level of the noise engine are changed by no transaction but an ADVANCE with a noise
path enabled (for WRITE and RESTORE this rests on D9). -/
def Obligations.NoisePausesWhileUnused : Prop :=
  ∀ (i : Instr) (s t : State), exec i s = .next t → (∀ x, i = .adv x → noiseUnused s.regs) →
    t.noise.phase = s.noise.phase ∧ t.noise.shift = s.noise.shift ∧ t.noise.level = s.noise.level

/-- R217: a noise engine that is not advanced never reaches the sample. -/
def Obligations.StaleNoiseNeverHeard : Prop :=
  ∀ (t : U32) (s : State) (g : Noise), noiseUnused s.regs → t.toNat ≤ 0xFFDFFFFF →
    ∃ u w, exec (.adv t) s = .next u ∧ exec (.adv t) { s with noise := g } = .next w ∧
      u.result = w.result ∧ u.tone = w.tone ∧ u.env = w.env

/-- R24, R62, R66: bits outside a register's fields, and the port registers, never affect a generator or a sample,
now or later. -/
def Obligations.UnusedBitsAreSilent : Prop :=
  ∀ (i : Instr) (s u : State) (r : RegFile), SameSound s.regs r → exec i s = .next u →
    ∃ w, exec i { s with regs := r } = .next w ∧
      u.tone = w.tone ∧ u.noise = w.noise ∧ u.env = w.env ∧ SameSound u.regs w.regs ∧
      (∀ x, i = .adv x → u.result = w.result)

/-! SNAPSHOT and RESTORE. -/

/-- R240 (stored bytes and no side effect: D12): byte 0 is `sel`, bytes 1..16 are the registers as stored. -/
def Obligations.SnapshotResult : Prop :=
  ∀ s : State, ∃ b : Vector Byte 17, exec .snap s = .next { s with result := .blob b } ∧
    b[0].toNat = s.sel.val ∧ ∀ i : RegIdx, b[i.val + 1] = s.regs[i]

/-- R241 with its corner cases: what a 17-byte RESTORE leaves. That it keeps noise phase, shift and level is D9. -/
def Obligations.RestoreResult : Prop :=
  ∀ (P : List Byte) (s : State), P.length = 17 → ∃ t, exec (.rst P) s = .next t ∧
    (∀ i : RegIdx, t.regs[i] = P.getD (i.val + 1) 0) ∧
    t.sel.val = (if (P.getD 0 0).toNat ≤ 15 then (P.getD 0 0).toNat else 15) ∧
    (∀ c : Chan, t.tone[c] = ⟨toneDivisor (P.getD (2 * c.val + 1) 0) (P.getD (2 * c.val + 2) 0), 0⟩) ∧
    t.noise = { s.noise with divisor := noiseDivisor (P.getD 7 0) } ∧
    t.env = envRestarted (P.getD 12 0) (P.getD 13 0) (P.getD 14 0) ∧
    t.result = .nothing ∧ t.refused = s.refused ∧ t.pos = s.pos ∧ t.pending = s.pending

/-- R241, R262 (D13): a payload of another length is refused. -/
def Obligations.RestoreOfMalformedBlobIsRefused : Prop :=
  ∀ (P : List Byte) (s : State), P.length ≠ 17 → exec (.rst P) s = .refused .malformedBlob

/-- R242: after any SELECTs, WRITEs and READs since construction, the snapshot restored into a newly constructed
controller with the same seed gives equal state (D5, D9, D12; the turns are log 5). -/
def Obligations.SnapshotRestoreRoundTrip : Prop :=
  ∀ (seed : BitVec 17) (calls : List HostCall), (∀ c ∈ calls, registerAccess c) →
    let s := State.turns calls.length { State.construct seed with pending := calls }
    SafeRun calls.length { State.construct seed with pending := calls } ∧
    ∃ u b t, exec .snap s = .next u ∧ u.result = .blob b ∧
      exec (.rst b.toList) (State.construct seed) = .next t ∧ SameCore t s

/-- R291: RESTORE of an all-zero blob is not a reset: it gives the construction state up to the noise engine, which
keeps phase, shift and level. -/
def Obligations.ZeroBlobIsNotAReset : Prop :=
  ∀ s : State, ∃ t, exec (.rst (List.replicate 17 0)) s = .next t ∧
    t.noise = { s.noise with divisor := 32 } ∧
    ∀ seed : BitVec 17,
      t.regs = (State.construct seed).regs ∧ t.sel = (State.construct seed).sel ∧
      t.tone = (State.construct seed).tone ∧ t.env = (State.construct seed).env ∧
      (SameCore t (State.construct seed) ↔ s.noise.phase = 0 ∧ s.noise.shift = seed ∧ s.noise.level = false)

/-! Invariant and whole-machine rules. -/

/-- R27, R28, R30, R31, R33, R44: the invariant holds at construction with every seed R11 allows, this machine's among
them. -/
def Obligations.ConstructionMeetsInvariant : Prop :=
  (∀ seed : BitVec 17, seed ≠ 0 → (State.construct seed).Inv) ∧ State.reset.Inv

/-- R27, R28, R30, R31, R33: every step keeps the invariant. -/
def Obligations.StepKeepsInvariant : Prop := ∀ s t : State, s.Inv → step s = .next t → t.Inv

/-- R14, R103, R124, R147: under the invariant no accumulated phase leaves 32 bits for a tick count ADVANCE accepts,
and no divisor is 0. -/
def Obligations.PhasesNeverOverflow : Prop :=
  ∀ (s : State) (t : Nat), s.Inv → t ≤ 0xFFDFFFFF →
    (∀ c : Chan, s.tone[c].phase.toNat + t < 2 ^ 32 ∧ 0 < s.tone[c].divisor.toNat) ∧
    (s.noise.phase.toNat + t < 2 ^ 32 ∧ 0 < s.noise.divisor.toNat) ∧
    (s.env.phase.toNat + t < 2 ^ 32 ∧ 0 < s.env.divisor.toNat)

/-- R262 (D25): no later turn clears the sticky mark; that the first refusal is the one kept is log 5. -/
def Obligations.RefusalMarkIsSticky : Prop :=
  ∀ (n : Nat) (s : State) (r : Refusal), s.refused = some r → (State.turns n s).refused = some r

/-- R13, R262 (D25): a refused transaction changes no state of the core and leaves the result; only the mark and the
host's position move. The refusal is one of the five of R262. -/
def Obligations.RefusedTransactionChangesNothing : Prop :=
  ∀ (s : State) (r : Refusal), step s = .refused r →
    SameCore s.turn s ∧ s.turn.result = s.result ∧ s.turn.refused = s.refused.or (some r) ∧
    s.turn.pending = s.pending.tail ∧ ∃ code, r.code = some code ∧ 1 ≤ code ∧ code ≤ 5

/-- R262: with no refusal, `n` turns are `n` steps of the machine. -/
def Obligations.SafeRunIsARun : Prop :=
  ∀ (n : Nat) (s : State), SafeRun n s →
    (Host.Core.run Sys2Proof.core n s : Host.Outcome State Fault Refusal) = .next (State.turns n s)

/-- R15, R51: the outcome and the result of a transaction depend on the core's state and the transaction alone, not on
the host's sequence, an earlier result or the mark. -/
def Obligations.OutcomeDependsOnCoreOnly : Prop :=
  ∀ (i : Instr) (s t : State), SameCore s t →
    (∀ u, exec i s = .next u → ∃ w, exec i t = .next w ∧ SameCore u w ∧ u.result = w.result) ∧
    (∀ r, exec i s = .refused r → exec i t = .refused r)

/-- R37: no transaction but ADVANCE shows anything of the generators to the host. -/
def Obligations.GeneratorsAreHidden : Prop :=
  ∀ (i : Instr) (s t u : State), s.regs = t.regs → s.sel = t.sel → (∀ x, i ≠ .adv x) → exec i s = .next u →
    ∃ w, exec i t = .next w ∧ u.result = w.result ∧ u.regs = w.regs ∧ u.sel = w.sel

/-- R83 (D2, words D1): what the expansion of each pseudo-transaction does; `sel` is left at the last index it selected.
That `NOISEF` keeps phase, shift and level of the noise engine (R120) is D9 (log 14); the turns are log 5. A `WRR` with
an index above 15 is `PseudoWriteAboveFifteen`. -/
def Obligations.PseudoTransactionEffects : Prop :=
  ∀ (s : State) (rest : List HostCall),
    let run (p : Pseudo) : State := State.turns p.expand.length { s with pending := p.expand ++ rest }
    (∀ p : Pseudo, (run p).pending = rest ∧ (run p).refused = s.refused) ∧
    (∀ i v : Byte, i.toNat ≤ 15 →
      (run (.wrr i v)).sel.val = i.toNat ∧
      (run (.wrr i v)).regs = s.regs.set (Fin.ofNat 16 i.toNat).val v) ∧
    (∀ (c : Chan) (f : BitVec 12),
      (run (.tone c f)).sel.val = 2 * c.val + 1 ∧
      (run (.tone c f)).tone = s.tone.set c.val ⟨BitVec.ofNat 32 (32 * max f.toNat 1), 0⟩ ∧
      (run (.tone c f)).noise = s.noise ∧ (run (.tone c f)).env = s.env) ∧
    (∀ f : BitVec 5,
      (run (.noisef f)).sel = 6 ∧
      (run (.noisef f)).noise = { s.noise with divisor := BitVec.ofNat 32 (32 * max f.toNat 1) }) ∧
    (∀ m : Byte, (run (.mix m)).sel = 7 ∧ (run (.mix m)).regs = s.regs.set 7 m) ∧
    (∀ (c : Chan) (v : Byte),
      (run (.vol c v)).sel.val = 8 + c.val ∧ (run (.vol c v)).regs = s.regs.set (8 + c.val) v) ∧
    (∀ (f : BitVec 16) (b : Byte),
      (run (.envf f b)).sel = 13 ∧
      (run (.envf f b)).env = envRestarted (BitVec.ofNat 8 f.toNat) (BitVec.ofNat 8 (f.toNat / 256)) b ∧
      (run (.envf f b)).tone = s.tone ∧ (run (.envf f b)).noise = s.noise)

/-- R83, R170, R176: a `WRR` whose index is above 15 selects nothing (its `SEL` is a no-op), so its `WR` stores at the
index selected before. Words D1 and D2; the turns are log 5. -/
def Obligations.PseudoWriteAboveFifteen : Prop :=
  ∀ (i v : Byte) (s : State) (rest : List HostCall), 15 < i.toNat →
    let p := Pseudo.wrr i v
    let t := State.turns p.expand.length { s with pending := p.expand ++ rest }
    t.sel = s.sel ∧ t.regs = s.regs.set s.sel.val v s.sel.isLt ∧ t.pending = rest ∧ t.refused = s.refused

end
end

