-- ==== Sys2Proof/Laws/State.lean ====
section
/-! SUPPORT. One lemma per field of `State` per update. -/

namespace Sys2Proof.Machine

@[simp] theorem State.setReg_regs (i : RegIdx) (v : Byte) (s : State) : (s.setReg i v).regs = s.regs.set i.val v i.isLt := rfl
@[simp] theorem State.setReg_sel (i : RegIdx) (v : Byte) (s : State) : (s.setReg i v).sel = s.sel := rfl
@[simp] theorem State.setReg_tone (i : RegIdx) (v : Byte) (s : State) : (s.setReg i v).tone = s.tone := rfl
@[simp] theorem State.setReg_noise (i : RegIdx) (v : Byte) (s : State) : (s.setReg i v).noise = s.noise := rfl
@[simp] theorem State.setReg_env (i : RegIdx) (v : Byte) (s : State) : (s.setReg i v).env = s.env := rfl
@[simp] theorem State.setReg_refused (i : RegIdx) (v : Byte) (s : State) : (s.setReg i v).refused = s.refused := rfl
@[simp] theorem State.setReg_pos (i : RegIdx) (v : Byte) (s : State) : (s.setReg i v).pos = s.pos := rfl
@[simp] theorem State.setReg_pending (i : RegIdx) (v : Byte) (s : State) : (s.setReg i v).pending = s.pending := rfl
@[simp] theorem State.setReg_result (i : RegIdx) (v : Byte) (s : State) : (s.setReg i v).result = s.result := rfl

@[simp] theorem State.setTone_regs (c : Chan) (g : Tone) (s : State) : (s.setTone c g).regs = s.regs := rfl
@[simp] theorem State.setTone_sel (c : Chan) (g : Tone) (s : State) : (s.setTone c g).sel = s.sel := rfl
@[simp] theorem State.setTone_tone (c : Chan) (g : Tone) (s : State) : (s.setTone c g).tone = s.tone.set c.val g c.isLt := rfl
@[simp] theorem State.setTone_noise (c : Chan) (g : Tone) (s : State) : (s.setTone c g).noise = s.noise := rfl
@[simp] theorem State.setTone_env (c : Chan) (g : Tone) (s : State) : (s.setTone c g).env = s.env := rfl
@[simp] theorem State.setTone_refused (c : Chan) (g : Tone) (s : State) : (s.setTone c g).refused = s.refused := rfl
@[simp] theorem State.setTone_pos (c : Chan) (g : Tone) (s : State) : (s.setTone c g).pos = s.pos := rfl
@[simp] theorem State.setTone_pending (c : Chan) (g : Tone) (s : State) : (s.setTone c g).pending = s.pending := rfl
@[simp] theorem State.setTone_result (c : Chan) (g : Tone) (s : State) : (s.setTone c g).result = s.result := rfl

@[simp] theorem State.setNoise_regs (g : Noise) (s : State) : (s.setNoise g).regs = s.regs := rfl
@[simp] theorem State.setNoise_sel (g : Noise) (s : State) : (s.setNoise g).sel = s.sel := rfl
@[simp] theorem State.setNoise_tone (g : Noise) (s : State) : (s.setNoise g).tone = s.tone := rfl
@[simp] theorem State.setNoise_noise (g : Noise) (s : State) : (s.setNoise g).noise = g := rfl
@[simp] theorem State.setNoise_env (g : Noise) (s : State) : (s.setNoise g).env = s.env := rfl
@[simp] theorem State.setNoise_refused (g : Noise) (s : State) : (s.setNoise g).refused = s.refused := rfl
@[simp] theorem State.setNoise_pos (g : Noise) (s : State) : (s.setNoise g).pos = s.pos := rfl
@[simp] theorem State.setNoise_pending (g : Noise) (s : State) : (s.setNoise g).pending = s.pending := rfl
@[simp] theorem State.setNoise_result (g : Noise) (s : State) : (s.setNoise g).result = s.result := rfl

@[simp] theorem State.setEnv_regs (g : Env) (s : State) : (s.setEnv g).regs = s.regs := rfl
@[simp] theorem State.setEnv_sel (g : Env) (s : State) : (s.setEnv g).sel = s.sel := rfl
@[simp] theorem State.setEnv_tone (g : Env) (s : State) : (s.setEnv g).tone = s.tone := rfl
@[simp] theorem State.setEnv_noise (g : Env) (s : State) : (s.setEnv g).noise = s.noise := rfl
@[simp] theorem State.setEnv_env (g : Env) (s : State) : (s.setEnv g).env = g := rfl
@[simp] theorem State.setEnv_refused (g : Env) (s : State) : (s.setEnv g).refused = s.refused := rfl
@[simp] theorem State.setEnv_pos (g : Env) (s : State) : (s.setEnv g).pos = s.pos := rfl
@[simp] theorem State.setEnv_pending (g : Env) (s : State) : (s.setEnv g).pending = s.pending := rfl
@[simp] theorem State.setEnv_result (g : Env) (s : State) : (s.setEnv g).result = s.result := rfl

@[simp] theorem State.setResult_regs (r : HostResult) (s : State) : (s.setResult r).regs = s.regs := rfl
@[simp] theorem State.setResult_sel (r : HostResult) (s : State) : (s.setResult r).sel = s.sel := rfl
@[simp] theorem State.setResult_tone (r : HostResult) (s : State) : (s.setResult r).tone = s.tone := rfl
@[simp] theorem State.setResult_noise (r : HostResult) (s : State) : (s.setResult r).noise = s.noise := rfl
@[simp] theorem State.setResult_env (r : HostResult) (s : State) : (s.setResult r).env = s.env := rfl
@[simp] theorem State.setResult_refused (r : HostResult) (s : State) : (s.setResult r).refused = s.refused := rfl
@[simp] theorem State.setResult_pos (r : HostResult) (s : State) : (s.setResult r).pos = s.pos := rfl
@[simp] theorem State.setResult_pending (r : HostResult) (s : State) : (s.setResult r).pending = s.pending := rfl
@[simp] theorem State.setResult_result (r : HostResult) (s : State) : (s.setResult r).result = r := rfl

@[simp] theorem State.consume_regs (s : State) : (s.consume).regs = s.regs := rfl
@[simp] theorem State.consume_sel (s : State) : (s.consume).sel = s.sel := rfl
@[simp] theorem State.consume_tone (s : State) : (s.consume).tone = s.tone := rfl
@[simp] theorem State.consume_noise (s : State) : (s.consume).noise = s.noise := rfl
@[simp] theorem State.consume_env (s : State) : (s.consume).env = s.env := rfl
@[simp] theorem State.consume_refused (s : State) : (s.consume).refused = s.refused := rfl
@[simp] theorem State.consume_pos (s : State) : (s.consume).pos = s.pos + 1 := rfl
@[simp] theorem State.consume_pending (s : State) : (s.consume).pending = s.pending.tail := rfl
@[simp] theorem State.consume_result (s : State) : (s.consume).result = s.result := rfl

@[simp] theorem State.markRefused_regs (r : Refusal) (s : State) : (s.markRefused r).regs = s.regs := rfl
@[simp] theorem State.markRefused_sel (r : Refusal) (s : State) : (s.markRefused r).sel = s.sel := rfl
@[simp] theorem State.markRefused_tone (r : Refusal) (s : State) : (s.markRefused r).tone = s.tone := rfl
@[simp] theorem State.markRefused_noise (r : Refusal) (s : State) : (s.markRefused r).noise = s.noise := rfl
@[simp] theorem State.markRefused_env (r : Refusal) (s : State) : (s.markRefused r).env = s.env := rfl
@[simp] theorem State.markRefused_refused (r : Refusal) (s : State) : (s.markRefused r).refused = s.refused.or (some r) := rfl
@[simp] theorem State.markRefused_pos (r : Refusal) (s : State) : (s.markRefused r).pos = s.pos + 1 := rfl
@[simp] theorem State.markRefused_pending (r : Refusal) (s : State) : (s.markRefused r).pending = s.pending.tail := rfl
@[simp] theorem State.markRefused_result (r : Refusal) (s : State) : (s.markRefused r).result = s.result := rfl

@[simp] theorem State.placeCall_regs (c : HostCall) (s : State) : (s.placeCall c).regs = s.regs := rfl
@[simp] theorem State.placeCall_sel (c : HostCall) (s : State) : (s.placeCall c).sel = s.sel := rfl
@[simp] theorem State.placeCall_tone (c : HostCall) (s : State) : (s.placeCall c).tone = s.tone := rfl
@[simp] theorem State.placeCall_noise (c : HostCall) (s : State) : (s.placeCall c).noise = s.noise := rfl
@[simp] theorem State.placeCall_env (c : HostCall) (s : State) : (s.placeCall c).env = s.env := rfl
@[simp] theorem State.placeCall_refused (c : HostCall) (s : State) : (s.placeCall c).refused = s.refused := rfl
@[simp] theorem State.placeCall_pos (c : HostCall) (s : State) : (s.placeCall c).pos = s.pos := rfl
@[simp] theorem State.placeCall_pending (c : HostCall) (s : State) : (s.placeCall c).pending = c :: s.pending.tail := rfl
@[simp] theorem State.placeCall_result (c : HostCall) (s : State) : (s.placeCall c).result = s.result := rfl

@[simp] theorem State.advanceGenerators_regs (t : Nat) (s : State) : (s.advanceGenerators t).regs = s.regs := rfl
@[simp] theorem State.advanceGenerators_sel (t : Nat) (s : State) : (s.advanceGenerators t).sel = s.sel := rfl
@[simp] theorem State.advanceGenerators_tone (t : Nat) (s : State) : (s.advanceGenerators t).tone = #v[s.tone[0].advance t, s.tone[1].advance t, s.tone[2].advance t] := rfl
@[simp] theorem State.advanceGenerators_noise (t : Nat) (s : State) : (s.advanceGenerators t).noise = if noiseWanted s.regs then s.noise.advance t else s.noise := rfl
@[simp] theorem State.advanceGenerators_env (t : Nat) (s : State) : (s.advanceGenerators t).env = s.env.advance t := rfl
@[simp] theorem State.advanceGenerators_refused (t : Nat) (s : State) : (s.advanceGenerators t).refused = s.refused := rfl
@[simp] theorem State.advanceGenerators_pos (t : Nat) (s : State) : (s.advanceGenerators t).pos = s.pos := rfl
@[simp] theorem State.advanceGenerators_pending (t : Nat) (s : State) : (s.advanceGenerators t).pending = s.pending := rfl
@[simp] theorem State.advanceGenerators_result (t : Nat) (s : State) : (s.advanceGenerators t).result = s.result := rfl

@[simp] theorem State.returnSample_regs (s : State) : (s.returnSample).regs = s.regs := rfl
@[simp] theorem State.returnSample_sel (s : State) : (s.returnSample).sel = s.sel := rfl
@[simp] theorem State.returnSample_tone (s : State) : (s.returnSample).tone = s.tone := rfl
@[simp] theorem State.returnSample_noise (s : State) : (s.returnSample).noise = s.noise := rfl
@[simp] theorem State.returnSample_env (s : State) : (s.returnSample).env = s.env := rfl
@[simp] theorem State.returnSample_refused (s : State) : (s.returnSample).refused = s.refused := rfl
@[simp] theorem State.returnSample_pos (s : State) : (s.returnSample).pos = s.pos := rfl
@[simp] theorem State.returnSample_pending (s : State) : (s.returnSample).pending = s.pending := rfl
@[simp] theorem State.returnSample_result (s : State) : (s.returnSample).result = .sample (BitVec.ofNat 16 s.mix) := rfl

@[simp] theorem State.select_regs (n : Byte) (s : State) : (s.select n).regs = s.regs := by
  unfold State.select; split <;> rfl
@[simp] theorem State.select_tone (n : Byte) (s : State) : (s.select n).tone = s.tone := by
  unfold State.select; split <;> rfl
@[simp] theorem State.select_noise (n : Byte) (s : State) : (s.select n).noise = s.noise := by
  unfold State.select; split <;> rfl
@[simp] theorem State.select_env (n : Byte) (s : State) : (s.select n).env = s.env := by
  unfold State.select; split <;> rfl
@[simp] theorem State.select_refused (n : Byte) (s : State) : (s.select n).refused = s.refused := by
  unfold State.select; split <;> rfl
@[simp] theorem State.select_pos (n : Byte) (s : State) : (s.select n).pos = s.pos := by
  unfold State.select; split <;> rfl
@[simp] theorem State.select_pending (n : Byte) (s : State) : (s.select n).pending = s.pending := by
  unfold State.select; split <;> rfl
@[simp] theorem State.select_result (n : Byte) (s : State) : (s.select n).result = s.result := by
  unfold State.select; split <;> rfl

/-- R170: what SELECT leaves in the latch. -/
theorem State.select_sel (n : Byte) (s : State) :
    (s.select n).sel = if h : n.toNat < 16 then ⟨n.toNat, h⟩ else s.sel := by
  unfold State.select; split <;> rfl

end Sys2Proof.Machine
end

