-- ==== Sys2Proof/Laws/Ops.lean ====
section
/-! SUPPORT. What each shared operation does, said once. -/

namespace Sys2Proof.Machine

/-! Operand forms, as numbers (R75 to R79). -/

theorem toneF_toNat (r : RegFile) (c : Chan) :
    (toneF r c).toNat = r[2 * c.val].toNat + 256 * (r[2 * c.val + 1].toNat % 16) := by
  have h := r[2 * c.val].isLt
  unfold toneF
  rw [BitVec.toNat_append, BitVec.extractLsb'_toNat, Nat.shiftRight_zero, Nat.shiftLeft_eq, Nat.mul_comm,
    ← Nat.two_pow_add_eq_or_of_lt h]
  omega

theorem noiseF_toNat (r : RegFile) : (noiseF r).toNat = r[6].toNat % 32 := by
  simp [noiseF, BitVec.extractLsb'_toNat]

theorem envF_toNat (r : RegFile) : (envF r).toNat = r[11].toNat + 256 * r[12].toNat := by
  have h := r[11].isLt
  unfold envF
  rw [BitVec.toNat_append, Nat.shiftLeft_eq, Nat.mul_comm, ← Nat.two_pow_add_eq_or_of_lt h]
  omega

theorem shapeCode_toNat (b : Byte) : (shapeCode b).toNat = b.toNat % 16 := by
  simp [shapeCode, BitVec.extractLsb'_toNat]

/-- R27: the clamped tone value is 1..4095. -/
theorem toneFC_bounds (r : RegFile) (c : Chan) : 1 ≤ toneFC r c ∧ toneFC r c ≤ 4095 := by
  have := (toneF r c).isLt; unfold toneFC; omega

/-- R30: the clamped noise value is 1..31. -/
theorem noiseFC_bounds (r : RegFile) : 1 ≤ noiseFC r ∧ noiseFC r ≤ 31 := by
  have := (noiseF r).isLt; unfold noiseFC; omega

/-- R33: the clamped envelope value is 1..65535. -/
theorem envFC_bounds (r : RegFile) : 1 ≤ envFC r ∧ envFC r ≤ 65535 := by
  have := (envF r).isLt; unfold envFC; omega

theorem volFixed_toNat (r : RegFile) (c : Chan) : (volFixed r c).toNat = r[8 + c.val].toNat % 16 := by
  simp [volFixed, BitVec.extractLsb'_toNat]

/-- R215: no entry of the volume table is above 8192. -/
theorem volume_le : ∀ i : BitVec 4, volume i ≤ 8192 := by decide

/-! Period reduction (R102). -/

/-- No crossing up to the divisor: the test of R101 is strict. -/
theorem reducedPhase_of_le {p d : Nat} (h : p ≤ d) : reducedPhase p d = p := by
  unfold reducedPhase
  split
  · omega
  · rw [Nat.mod_eq_of_lt (by omega)]; omega

theorem crossings_of_le {p d : Nat} (h : p ≤ d) : crossings p d = 0 := by
  unfold crossings
  rcases Nat.eq_zero_or_pos d with rfl | hd
  · simp
  · exact Nat.div_eq_of_lt (by omega)

/-- One pass of the reduction loop of R101 does not change the phase it ends in. -/
theorem reducedPhase_sub {p d : Nat} (h : d < p) : reducedPhase p d = reducedPhase (p - d) d := by
  have e : (p - 1) % d = (p - d - 1) % d := by
    rw [show p - 1 = p - d - 1 + d by omega, Nat.add_mod_right]
  unfold reducedPhase
  rw [if_neg (by omega), if_neg (by omega), e]

/-- One pass of the reduction loop of R101 is one crossing. -/
theorem crossings_sub {p d : Nat} (hd : 0 < d) (h : d < p) : crossings p d = crossings (p - d) d + 1 := by
  unfold crossings
  rw [show p - 1 = p - d - 1 + d by omega, Nat.add_div_right _ hd]

theorem reducedPhase_le {p d : Nat} (hd : 0 < d) : reducedPhase p d ≤ d := by
  unfold reducedPhase
  split
  · omega
  · exact Nat.mod_lt _ hd

theorem reducedPhase_le_self (p d : Nat) : reducedPhase p d ≤ p := by
  unfold reducedPhase
  split
  · omega
  · have := Nat.mod_le (p - 1) d; omega

/-- The accumulated phase is the phase left and one divisor per crossing. -/
theorem reducedPhase_add_crossings (p d : Nat) : reducedPhase p d + crossings p d * d = p := by
  unfold reducedPhase crossings
  have := Nat.mod_add_div (p - 1) d
  rw [Nat.mul_comm] at this
  split
  · subst p; simp
  · omega

/-- Every crossing of R101 happens above the divisor. -/
theorem lt_of_lt_crossings {p d m : Nat} (hd : 0 < d) (hm : m < crossings p d) : d < p - m * d := by
  unfold crossings at hm
  have h1 : (m + 1) * d ≤ (p - 1) / d * d := Nat.mul_le_mul_right _ hm
  have h2 := Nat.div_mul_le_self (p - 1) d
  have h3 : (m + 1) * d = m * d + d := by ring
  rcases Nat.eq_zero_or_pos p with rfl | hp
  · simp at hm
  · omega

theorem toNat_reducedPhase {p : Nat} (d : U32) (hd : 0 < d.toNat) :
    (BitVec.ofNat 32 (reducedPhase p d.toNat)).toNat = reducedPhase p d.toNat := by
  have := reducedPhase_le (p := p) hd
  simp only [BitVec.toNat_ofNat]
  exact Nat.mod_eq_of_lt (by omega)

/-! Generators. -/

@[simp] theorem Tone.setFrequency_divisor (f : Nat) : (Tone.setFrequency f).divisor = BitVec.ofNat 32 (32 * f) := rfl
@[simp] theorem Tone.setFrequency_phase (f : Nat) : (Tone.setFrequency f).phase = 0 := rfl
@[simp] theorem Tone.advance_divisor (t : Nat) (g : Tone) : (g.advance t).divisor = g.divisor := rfl

/-- R101, R102: the phase an advance leaves, exact for every non-zero divisor. -/
theorem Tone.advance_phase (t : Nat) (g : Tone) (hd : 0 < g.divisor.toNat) :
    (g.advance t).phase.toNat = reducedPhase (g.phase.toNat + t) g.divisor.toNat := toNat_reducedPhase g.divisor hd

@[simp] theorem Noise.setFrequency_divisor (f : Nat) (g : Noise) :
    (g.setFrequency f).divisor = BitVec.ofNat 32 (32 * max f 1) := rfl
@[simp] theorem Noise.setFrequency_phase (f : Nat) (g : Noise) : (g.setFrequency f).phase = g.phase := rfl
@[simp] theorem Noise.setFrequency_shift (f : Nat) (g : Noise) : (g.setFrequency f).shift = g.shift := rfl
@[simp] theorem Noise.setFrequency_level (f : Nat) (g : Noise) : (g.setFrequency f).level = g.level := rfl

@[simp] theorem Noise.lfsrStep_divisor (g : Noise) : g.lfsrStep.divisor = g.divisor := rfl
@[simp] theorem Noise.lfsrStep_phase (g : Noise) : g.lfsrStep.phase = g.phase := rfl

@[simp] theorem Noise.lfsrSteps_divisor (n : Nat) (g : Noise) : (Noise.lfsrSteps n g).divisor = g.divisor := by
  induction n generalizing g with
  | zero => rfl
  | succ n ih => exact ih g.lfsrStep

@[simp] theorem Noise.lfsrSteps_phase (n : Nat) (g : Noise) : (Noise.lfsrSteps n g).phase = g.phase := by
  induction n generalizing g with
  | zero => rfl
  | succ n ih => exact ih g.lfsrStep

/-- The LFSR steps are the iterates of one step. -/
theorem Noise.lfsrSteps_eq_iterate (n : Nat) (g : Noise) : Noise.lfsrSteps n g = Noise.lfsrStep^[n] g := by
  induction n generalizing g with
  | zero => rfl
  | succ n ih => exact ih g.lfsrStep

theorem Noise.lfsrSteps_add (n m : Nat) (g : Noise) :
    Noise.lfsrSteps (n + m) g = Noise.lfsrSteps m (Noise.lfsrSteps n g) := by
  simp only [Noise.lfsrSteps_eq_iterate]; rw [Nat.add_comm, Function.iterate_add_apply]

@[simp] theorem Noise.advance_divisor (t : Nat) (g : Noise) : (g.advance t).divisor = g.divisor := by
  simp [Noise.advance]

/-- R121: the phase an advance leaves, exact for every non-zero divisor. -/
theorem Noise.advance_phase (t : Nat) (g : Noise) (hd : 0 < g.divisor.toNat) :
    (g.advance t).phase.toNat = reducedPhase (g.phase.toNat + t) g.divisor.toNat := toNat_reducedPhase g.divisor hd

theorem Noise.advance_shift (t : Nat) (g : Noise) :
    (g.advance t).shift = (Noise.lfsrSteps (crossings (g.phase.toNat + t) g.divisor.toNat) g).shift := rfl

theorem Noise.advance_level (t : Nat) (g : Noise) :
    (g.advance t).level = (Noise.lfsrSteps (crossings (g.phase.toNat + t) g.divisor.toNat) g).level := rfl

@[simp] theorem Env.setFreqShape_divisor (f : Nat) (b : Byte) :
    (Env.setFreqShape f b).divisor = BitVec.ofNat 32 (32 * f) := rfl
@[simp] theorem Env.setFreqShape_phase (f : Nat) (b : Byte) : (Env.setFreqShape f b).phase = 0 := rfl
@[simp] theorem Env.setFreqShape_step (f : Nat) (b : Byte) : (Env.setFreqShape f b).step = 0 := rfl
@[simp] theorem Env.setFreqShape_shape (f : Nat) (b : Byte) :
    (Env.setFreqShape f b).shape = shapeOfCode (shapeCode b) := rfl
@[simp] theorem Env.setFreqShape_block (f : Nat) (b : Byte) :
    (Env.setFreqShape f b).block = initialBlock (shapeOfCode (shapeCode b)) := rfl

@[simp] theorem Env.advance_divisor (t : Nat) (g : Env) : (g.advance t).divisor = g.divisor := rfl
@[simp] theorem Env.advance_shape (t : Nat) (g : Env) : (g.advance t).shape = g.shape := rfl

/-- R143: the phase an advance leaves, exact for every non-zero divisor. -/
theorem Env.advance_phase (t : Nat) (g : Env) (hd : 0 < g.divisor.toNat) :
    (g.advance t).phase.toNat = reducedPhase (g.phase.toNat + t) g.divisor.toNat := toNat_reducedPhase g.divisor hd

/-- R146: the step after n crossings. -/
theorem Env.advance_step (t : Nat) (g : Env) :
    (g.advance t).step.val = (g.step.val + crossings (g.phase.toNat + t) g.divisor.toNat) % 16 := rfl

/-- R146: the block after n crossings. -/
theorem Env.advance_block (t : Nat) (g : Env) :
    (g.advance t).block =
      blockAfter g.shape ((g.step.val + crossings (g.phase.toNat + t) g.divisor.toNat) / 16) g.block := rfl

theorem blockAfter_eq_iterate (shape : Shape) (n : Nat) (b : Block) :
    blockAfter shape n b = (nextBlock shape)^[n] b := by
  induction n generalizing b with
  | zero => rfl
  | succ n ih => exact ih _

theorem blockAfter_add (shape : Shape) (n m : Nat) (b : Block) :
    blockAfter shape (n + m) b = blockAfter shape m (blockAfter shape n b) := by
  simp only [blockAfter_eq_iterate]; rw [Nat.add_comm, Function.iterate_add_apply]

/-! The register file. -/

@[simp] theorem State.applyEffect_regs (e : WriteEffect) (s : State) : (s.applyEffect e).regs = s.regs := by
  cases e <;> rfl
@[simp] theorem State.applyEffect_sel (e : WriteEffect) (s : State) : (s.applyEffect e).sel = s.sel := by
  cases e <;> rfl
@[simp] theorem State.applyEffect_refused (e : WriteEffect) (s : State) : (s.applyEffect e).refused = s.refused := by
  cases e <;> rfl
@[simp] theorem State.applyEffect_pos (e : WriteEffect) (s : State) : (s.applyEffect e).pos = s.pos := by
  cases e <;> rfl
@[simp] theorem State.applyEffect_pending (e : WriteEffect) (s : State) : (s.applyEffect e).pending = s.pending := by
  cases e <;> rfl
@[simp] theorem State.applyEffect_result (e : WriteEffect) (s : State) : (s.applyEffect e).result = s.result := by
  cases e <;> rfl

/-- R21, R176: a WRITE stores the full byte. -/
@[simp] theorem State.writeAt_regs (i : RegIdx) (v : Byte) (s : State) :
    (s.writeAt i v).regs = s.regs.set i.val v i.isLt := by simp [State.writeAt]
@[simp] theorem State.writeAt_sel (i : RegIdx) (v : Byte) (s : State) : (s.writeAt i v).sel = s.sel := by
  simp [State.writeAt]
@[simp] theorem State.writeAt_refused (i : RegIdx) (v : Byte) (s : State) :
    (s.writeAt i v).refused = s.refused := by simp [State.writeAt]
@[simp] theorem State.writeAt_pos (i : RegIdx) (v : Byte) (s : State) : (s.writeAt i v).pos = s.pos := by
  simp [State.writeAt]
@[simp] theorem State.writeAt_pending (i : RegIdx) (v : Byte) (s : State) :
    (s.writeAt i v).pending = s.pending := by simp [State.writeAt]
@[simp] theorem State.writeAt_result (i : RegIdx) (v : Byte) (s : State) : (s.writeAt i v).result = s.result := by
  simp [State.writeAt]

/-- The generators after a WRITE depend on its effect alone (R176). -/
theorem State.writeAt_generators (i : RegIdx) (v : Byte) (s : State) :
    let r := s.regs.set i.val v i.isLt
    (s.writeAt i v).tone = (match writeEffect i with
      | .restartTone c => s.tone.set c.val (Tone.setFrequency (toneFC r c)) c.isLt
      | _ => s.tone) ∧
    (s.writeAt i v).noise = (match writeEffect i with
      | .setNoise => s.noise.setFrequency (noiseFC r)
      | _ => s.noise) ∧
    (s.writeAt i v).env = (match writeEffect i with
      | .restartEnv => Env.setFreqShape (envFC r) r[13]
      | _ => s.env) := by
  unfold State.writeAt State.applyEffect
  cases writeEffect i <;> exact ⟨rfl, rfl, rfl⟩

/-- SELECT of an index in range (R170). -/
theorem State.select_index (k : RegIdx) (s : State) : s.select (BitVec.ofNat 8 k.val) = { s with sel := k } := by
  have e : (BitVec.ofNat 8 k.val).toNat = k.val := by simp; omega
  unfold State.select
  rw [dif_pos (by omega)]
  congr 1
  exact Fin.ext e

/-- SELECT and then WRITE is the WRITE at that index: one pass of RESTORE's replay (R241). -/
theorem State.select_write (k : RegIdx) (b : Byte) (s : State) :
    (s.select (BitVec.ofNat 8 k.val)).write b = State.writeAt k b { s with sel := k } := by
  rw [State.select_index]; rfl

@[simp] theorem State.replay_refused (i : Nat) (bs : List Byte) (s : State) :
    (State.replay i bs s).refused = s.refused := by
  induction bs generalizing i s with
  | nil => rfl
  | cons b bs ih => simp [State.replay, State.write, ih]

@[simp] theorem State.replay_pos (i : Nat) (bs : List Byte) (s : State) : (State.replay i bs s).pos = s.pos := by
  induction bs generalizing i s with
  | nil => rfl
  | cons b bs ih => simp [State.replay, State.write, ih]

@[simp] theorem State.replay_pending (i : Nat) (bs : List Byte) (s : State) :
    (State.replay i bs s).pending = s.pending := by
  induction bs generalizing i s with
  | nil => rfl
  | cons b bs ih => simp [State.replay, State.write, ih]

/-! One step. -/

/-- All a step can do: keep the state, refuse an overlapping call, or run the decoded transaction. -/
theorem step_cases (s : State) :
    (s.pending = [] ∧ step s = .next s) ∨
    ∃ c rest, s.pending = c :: rest ∧
      step s = if c.overlapping then .refused .hostDuty else exec (decode s.sel c.tw c.payload) s.consume := by
  unfold step State.nextCall
  cases h : s.pending with
  | nil => exact .inl ⟨rfl, rfl⟩
  | cons c rest => exact .inr ⟨c, rest, rfl, rfl⟩

end Sys2Proof.Machine
end

