-- ==== Sys2Proof/Laws/Decode.lean ====
section
/-! SUPPORT. The fields of an encoded word, and what decode answers on the encodings of R71. -/

namespace Sys2Proof

theorem extract_toNat (tw : TxnWord) (lo n : Nat) : (tw.extractLsb' lo n).toNat = tw.toNat / 2 ^ lo % 2 ^ n := by
  simp [BitVec.extractLsb'_toNat, Nat.shiftRight_eq_div_pow]

@[simp] theorem zext32_toNat (b : Byte) : (zext32 b).toNat = b.toNat := by
  have := b.isLt
  simp only [zext32, BitVec.toNat_setWidth]; omega

/-- R70: the word as a number. -/
theorem opndWord_toNat (kind : Byte) (opnd : U32) : (opndWord kind opnd).toNat = kind.toNat * 2 ^ 56 + opnd.toNat := by
  have := opnd.isLt; have := kind.isLt
  unfold opndWord
  simp only [BitVec.toNat_or, BitVec.toNat_shiftLeft, BitVec.toNat_setWidth]
  rw [Nat.mod_eq_of_lt (a := opnd.toNat) (by omega), Nat.mod_eq_of_lt (a := kind.toNat) (by omega), Nat.shiftLeft_eq,
    Nat.mod_eq_of_lt (by omega), Nat.mul_comm, ← Nat.two_pow_add_eq_or_of_lt (by omega)]

@[simp] theorem rsvOf_opndWord (kind : Byte) (opnd : U32) : rsvOf (opndWord kind opnd) = 0#24 := by
  have h := opndWord_toNat kind opnd; have := kind.isLt; have := opnd.isLt
  apply BitVec.eq_of_toNat_eq; unfold rsvOf; rw [extract_toNat, h]; simp; omega

@[simp] theorem kindOf_opndWord (kind : Byte) (opnd : U32) : kindOf (opndWord kind opnd) = kind := by
  have h := opndWord_toNat kind opnd; have := kind.isLt; have := opnd.isLt
  apply BitVec.eq_of_toNat_eq; unfold kindOf; rw [extract_toNat, h]; omega

@[simp] theorem opndOf_opndWord (kind : Byte) (opnd : U32) : opndOf (opndWord kind opnd) = opnd := by
  have h := opndWord_toNat kind opnd; have := kind.isLt; have := opnd.isLt
  apply BitVec.eq_of_toNat_eq; unfold opndOf; rw [extract_toNat, h]; omega

/-- A byte operand: `OPND[7:0]` is the byte and `OPND[31:8]` is 0 (R71). -/
theorem byteOperand_opndWord (kind v : Byte) :
    (opndWord kind (zext32 v)).extractLsb' 0 8 = v ∧ (opndWord kind (zext32 v)).extractLsb' 8 24 = 0#24 := by
  have h := opndWord_toNat kind (zext32 v); have := kind.isLt; have := v.isLt
  rw [zext32_toNat] at h
  constructor <;> apply BitVec.eq_of_toNat_eq <;> rw [extract_toNat, h]
  · omega
  · simp; omega

/-- A word with `RSV` 0 is its `KIND` and its `OPND` (R70). -/
theorem opndWord_of_parts (tw : TxnWord) (h : rsvOf tw = 0#24) : opndWord (kindOf tw) (opndOf tw) = tw := by
  have h' := congrArg BitVec.toNat h
  have := tw.isLt
  apply BitVec.eq_of_toNat_eq
  unfold rsvOf at h'; unfold kindOf opndOf
  rw [opndWord_toNat]
  rw [extract_toNat] at h'; rw [extract_toNat, extract_toNat]
  simp at h'; omega

/-- `WR v` decodes to the row of the selected index (R80). -/
theorem decode_wrWord (sel : RegIdx) (v : Byte) (payload : List Byte) :
    decode sel (opndWord 0x02#8 (zext32 v)) payload = decodeWrite sel v := by
  obtain ⟨h1, h2⟩ := byteOperand_opndWord 0x02#8 v
  simp [decode, h1, h2]

/-- `SEL n` (R71). -/
theorem decode_selWord (sel : RegIdx) (n : Byte) (payload : List Byte) :
    decode sel (opndWord 0x01#8 (zext32 n)) payload = .sel n := by
  obtain ⟨h1, h2⟩ := byteOperand_opndWord 0x01#8 n
  simp [decode, h1, h2]

/-- `RD` decodes to the row of the selected index (R80). -/
theorem decode_rdWord (sel : RegIdx) (payload : List Byte) :
    decode sel (opndWord 0x03#8 0#32) payload = decodeRead sel := by
  simp [decode]

end Sys2Proof
end

