-- ==== Sys2Proof/Laws/Exec.lean ====
section
/-! SUPPORT. All that a transaction can do, said once for the 38 rows: by the index of a WRITE or READ instead of by
constructor. -/

namespace Sys2Proof.Machine

/-- Every WRITE row is the store at its index with the effect of that index (R176). -/
theorem exec_decodeWrite (k : RegIdx) (v : Byte) (s : State) :
    exec (decodeWrite k v) s = .next ((s.writeAt k v).setResult .nothing) := by
  fin_cases k <;> rfl

/-- Every READ row returns the masked byte of its index (R173). -/
theorem exec_decodeRead (k : RegIdx) (s : State) :
    exec (decodeRead k) s = .next (s.setResult (.byte (s.readAt k))) := by
  fin_cases k <;> rfl

/-- The transactions that complete, and the state each leaves. -/
inductive Completes : Instr → State → State → Prop
  | sel (n : Byte) (s : State) : Completes (.sel n) s ((s.select n).setResult .nothing)
  | write (k : RegIdx) (v : Byte) (s : State) : Completes (decodeWrite k v) s ((s.writeAt k v).setResult .nothing)
  | read (k : RegIdx) (s : State) : Completes (decodeRead k) s (s.setResult (.byte (s.readAt k)))
  | adv (t : U32) (s : State) : t.toNat ≤ Config.tWfMax → Completes (.adv t) s (s.advanceGenerators t.toNat).returnSample
  | snap (s : State) : Completes .snap s (s.setResult (.blob s.blob))
  | rst (payload : List Byte) (s : State) :
    payload.length = 17 → Completes (.rst payload) s ((s.restore payload).setResult .nothing)

theorem Completes.exec {i : Instr} {s t : State} (h : Completes i s t) : exec i s = .next t := by
  cases h with
  | sel | snap => rfl
  | write => exact exec_decodeWrite ..
  | read => exact exec_decodeRead ..
  | adv _ _ h => show execAdv _ _ = _; unfold execAdv; rw [if_neg (by omega)]
  | rst _ _ h => show execRst _ _ = _; unfold execRst; rw [if_pos h]

/-- The inversion lemma of `exec`. -/
theorem exec_next {i : Instr} {s t : State} (h : Sys2Proof.Machine.exec i s = .next t) : Completes i s t := by
  cases i
  case sel n => cases h; exact .sel ..
  case snap => cases h; exact .snap ..
  case reservedKind => cases h
  case reservedRsv => cases h
  case adv u =>
    change execAdv _ _ = _ at h; unfold execAdv at h
    split at h
    · cases h
    · cases h; exact .adv _ _ (by omega)
  case rst p =>
    change execRst _ _ = _ at h; unfold execRst at h
    split at h
    · cases h; exact .rst _ _ ‹_›
    · cases h
  case wrSel0 v => cases h; exact .write 0 v s
  case wrSel1 v => cases h; exact .write 1 v s
  case wrSel2 v => cases h; exact .write 2 v s
  case wrSel3 v => cases h; exact .write 3 v s
  case wrSel4 v => cases h; exact .write 4 v s
  case wrSel5 v => cases h; exact .write 5 v s
  case wrSel6 v => cases h; exact .write 6 v s
  case wrSel7 v => cases h; exact .write 7 v s
  case wrSel8 v => cases h; exact .write 8 v s
  case wrSel9 v => cases h; exact .write 9 v s
  case wrSel10 v => cases h; exact .write 10 v s
  case wrSel11 v => cases h; exact .write 11 v s
  case wrSel12 v => cases h; exact .write 12 v s
  case wrSel13 v => cases h; exact .write 13 v s
  case wrSel14 v => cases h; exact .write 14 v s
  case wrSel15 v => cases h; exact .write 15 v s
  case rdSel0 => cases h; exact .read 0 s
  case rdSel1 => cases h; exact .read 1 s
  case rdSel2 => cases h; exact .read 2 s
  case rdSel3 => cases h; exact .read 3 s
  case rdSel4 => cases h; exact .read 4 s
  case rdSel5 => cases h; exact .read 5 s
  case rdSel6 => cases h; exact .read 6 s
  case rdSel7 => cases h; exact .read 7 s
  case rdSel8 => cases h; exact .read 8 s
  case rdSel9 => cases h; exact .read 9 s
  case rdSel10 => cases h; exact .read 10 s
  case rdSel11 => cases h; exact .read 11 s
  case rdSel12 => cases h; exact .read 12 s
  case rdSel13 => cases h; exact .read 13 s
  case rdSel14 => cases h; exact .read 14 s
  case rdSel15 => cases h; exact .read 15 s

/-- Which transactions are refused, and how (R72, R210, R241). -/
theorem exec_refused {i : Instr} {s : State} {r : Refusal} (h : exec i s = .refused r) :
    (∃ t, i = .adv t ∧ Config.tWfMax < t.toNat ∧ r = .tickRange) ∨
    (∃ p, i = .rst p ∧ p.length ≠ 17 ∧ r = .malformedBlob) ∨
    (∃ kind opnd, i = .reservedKind kind opnd ∧ r = .reservedKind) ∨
    (∃ tw, i = .reservedRsv tw ∧ r = .reservedBits) := by
  cases i
  case adv t =>
    change execAdv _ _ = _ at h; unfold execAdv at h
    split at h
    · cases h; exact .inl ⟨t, rfl, ‹_›, rfl⟩
    · cases h
  case rst p =>
    change execRst _ _ = _ at h; unfold execRst at h
    split at h
    · cases h
    · cases h; exact .inr (.inl ⟨p, rfl, ‹_›, rfl⟩)
  case reservedKind kind opnd => cases h; exact .inr (.inr (.inl ⟨kind, opnd, rfl, rfl⟩))
  case reservedRsv tw => cases h; exact .inr (.inr (.inr ⟨tw, rfl, rfl⟩))
  all_goals cases h

end Sys2Proof.Machine
end

