-- ==== Sys2Proof/Laws/PerInstr.lean ====
section
/-! SUPPORT. The family `Row`: the encoded word of a transaction has its opcode-table row's `match` under the row's
`mask`. -/

namespace Sys2Proof.Laws.Row

/-- `mask` and `match` of the row in spec/opcode_table.json. For `RESERVED.KIND` the row names one of the reserved
kinds and its note the others, so the mask kept here is that of `RSV`, which is checked before the kind (R263). -/
def bits : Instr → TxnWord × TxnWord
  | .sel _ => (0xFFFFFFFFFFFFFF00, 0x0100000000000000)
  | .wrSel0 _ => (0xFFFFFFFFFFFFFF00, 0x0200000000000000)
  | .wrSel1 _ => (0xFFFFFFFFFFFFFF00, 0x0200000000000000)
  | .wrSel2 _ => (0xFFFFFFFFFFFFFF00, 0x0200000000000000)
  | .wrSel3 _ => (0xFFFFFFFFFFFFFF00, 0x0200000000000000)
  | .wrSel4 _ => (0xFFFFFFFFFFFFFF00, 0x0200000000000000)
  | .wrSel5 _ => (0xFFFFFFFFFFFFFF00, 0x0200000000000000)
  | .wrSel6 _ => (0xFFFFFFFFFFFFFF00, 0x0200000000000000)
  | .wrSel7 _ => (0xFFFFFFFFFFFFFF00, 0x0200000000000000)
  | .wrSel8 _ => (0xFFFFFFFFFFFFFF00, 0x0200000000000000)
  | .wrSel9 _ => (0xFFFFFFFFFFFFFF00, 0x0200000000000000)
  | .wrSel10 _ => (0xFFFFFFFFFFFFFF00, 0x0200000000000000)
  | .wrSel11 _ => (0xFFFFFFFFFFFFFF00, 0x0200000000000000)
  | .wrSel12 _ => (0xFFFFFFFFFFFFFF00, 0x0200000000000000)
  | .wrSel13 _ => (0xFFFFFFFFFFFFFF00, 0x0200000000000000)
  | .wrSel14 _ => (0xFFFFFFFFFFFFFF00, 0x0200000000000000)
  | .wrSel15 _ => (0xFFFFFFFFFFFFFF00, 0x0200000000000000)
  | .rdSel0 => (0xFFFFFFFFFFFFFFFF, 0x0300000000000000)
  | .rdSel1 => (0xFFFFFFFFFFFFFFFF, 0x0300000000000000)
  | .rdSel2 => (0xFFFFFFFFFFFFFFFF, 0x0300000000000000)
  | .rdSel3 => (0xFFFFFFFFFFFFFFFF, 0x0300000000000000)
  | .rdSel4 => (0xFFFFFFFFFFFFFFFF, 0x0300000000000000)
  | .rdSel5 => (0xFFFFFFFFFFFFFFFF, 0x0300000000000000)
  | .rdSel6 => (0xFFFFFFFFFFFFFFFF, 0x0300000000000000)
  | .rdSel7 => (0xFFFFFFFFFFFFFFFF, 0x0300000000000000)
  | .rdSel8 => (0xFFFFFFFFFFFFFFFF, 0x0300000000000000)
  | .rdSel9 => (0xFFFFFFFFFFFFFFFF, 0x0300000000000000)
  | .rdSel10 => (0xFFFFFFFFFFFFFFFF, 0x0300000000000000)
  | .rdSel11 => (0xFFFFFFFFFFFFFFFF, 0x0300000000000000)
  | .rdSel12 => (0xFFFFFFFFFFFFFFFF, 0x0300000000000000)
  | .rdSel13 => (0xFFFFFFFFFFFFFFFF, 0x0300000000000000)
  | .rdSel14 => (0xFFFFFFFFFFFFFFFF, 0x0300000000000000)
  | .rdSel15 => (0xFFFFFFFFFFFFFFFF, 0x0300000000000000)
  | .adv _ => (0xFFFFFFFF00000000, 0x0400000000000000)
  | .snap => (0xFFFFFFFFFFFFFFFF, 0x0500000000000000)
  | .rst _ => (0xFFFFFFFFFFFFFFFF, 0x0600000000000000)
  | .reservedKind _ _ => (0x00FFFFFF00000000, 0)
  | .reservedRsv _ => (0, 0)

/-- The encoded word matches the row (R71). -/
def Statement (i : Instr) : Prop := (encode i).1 &&& (bits i).1 = (bits i).2

/-- A byte operand lies in bits 7..0. -/
theorem byte_operand : ∀ b : Byte, (zext32 b).setWidth 64 &&& 0xFFFFFFFFFFFFFF00 = 0#64 := by decide

/-- A 32-bit operand lies in bits 31..0. -/
theorem word_operand (opnd : U32) : opnd.setWidth 64 &&& 0xFFFFFFFF00000000 = 0#64 := by
  ext j hj
  interval_cases j <;> simp

/-- `RSV` of an encoded word is 0 (R70). -/
theorem rsv_zero (kind : Byte) (opnd : U32) : opndWord kind opnd &&& 0x00FFFFFF00000000 = 0 := by
  have hk : ∀ k : Byte, k.setWidth 64 <<< 56 &&& 0x00FFFFFF00000000 = 0#64 := by decide
  have ho : opnd.setWidth 64 &&& 0x00FFFFFF00000000 = 0#64 := by
    ext j hj
    interval_cases j <;> simp
  simp only [opndWord, BitVec.and_or_distrib_right, hk, ho]
  rfl

/-- A byte operand under its row's mask. -/
theorem byte_row (kind b : Byte) (m : TxnWord) (h : kind.setWidth 64 <<< 56 &&& 0xFFFFFFFFFFFFFF00 = m) :
    opndWord kind (zext32 b) &&& 0xFFFFFFFFFFFFFF00 = m := by
  simp only [opndWord, BitVec.and_or_distrib_right, byte_operand, h, BitVec.or_zero]

theorem sel (n : Byte) : Statement (.sel n) := byte_row 0x01#8 n _ rfl
theorem wrSel0 (v : Byte) : Statement (.wrSel0 v) := byte_row 0x02#8 v _ rfl
theorem wrSel1 (v : Byte) : Statement (.wrSel1 v) := byte_row 0x02#8 v _ rfl
theorem wrSel2 (v : Byte) : Statement (.wrSel2 v) := byte_row 0x02#8 v _ rfl
theorem wrSel3 (v : Byte) : Statement (.wrSel3 v) := byte_row 0x02#8 v _ rfl
theorem wrSel4 (v : Byte) : Statement (.wrSel4 v) := byte_row 0x02#8 v _ rfl
theorem wrSel5 (v : Byte) : Statement (.wrSel5 v) := byte_row 0x02#8 v _ rfl
theorem wrSel6 (v : Byte) : Statement (.wrSel6 v) := byte_row 0x02#8 v _ rfl
theorem wrSel7 (v : Byte) : Statement (.wrSel7 v) := byte_row 0x02#8 v _ rfl
theorem wrSel8 (v : Byte) : Statement (.wrSel8 v) := byte_row 0x02#8 v _ rfl
theorem wrSel9 (v : Byte) : Statement (.wrSel9 v) := byte_row 0x02#8 v _ rfl
theorem wrSel10 (v : Byte) : Statement (.wrSel10 v) := byte_row 0x02#8 v _ rfl
theorem wrSel11 (v : Byte) : Statement (.wrSel11 v) := byte_row 0x02#8 v _ rfl
theorem wrSel12 (v : Byte) : Statement (.wrSel12 v) := byte_row 0x02#8 v _ rfl
theorem wrSel13 (v : Byte) : Statement (.wrSel13 v) := byte_row 0x02#8 v _ rfl
theorem wrSel14 (v : Byte) : Statement (.wrSel14 v) := byte_row 0x02#8 v _ rfl
theorem wrSel15 (v : Byte) : Statement (.wrSel15 v) := byte_row 0x02#8 v _ rfl
theorem rdSel0 : Statement .rdSel0 := rfl
theorem rdSel1 : Statement .rdSel1 := rfl
theorem rdSel2 : Statement .rdSel2 := rfl
theorem rdSel3 : Statement .rdSel3 := rfl
theorem rdSel4 : Statement .rdSel4 := rfl
theorem rdSel5 : Statement .rdSel5 := rfl
theorem rdSel6 : Statement .rdSel6 := rfl
theorem rdSel7 : Statement .rdSel7 := rfl
theorem rdSel8 : Statement .rdSel8 := rfl
theorem rdSel9 : Statement .rdSel9 := rfl
theorem rdSel10 : Statement .rdSel10 := rfl
theorem rdSel11 : Statement .rdSel11 := rfl
theorem rdSel12 : Statement .rdSel12 := rfl
theorem rdSel13 : Statement .rdSel13 := rfl
theorem rdSel14 : Statement .rdSel14 := rfl
theorem rdSel15 : Statement .rdSel15 := rfl
theorem adv (t : U32) : Statement (.adv t) := by
  simp only [Statement, encode, bits, opndWord, BitVec.and_or_distrib_right, word_operand]
  rfl
theorem snap : Statement .snap := rfl
theorem rst (payload : List Byte) : Statement (.rst payload) := by
  simp only [Statement, encode, bits]
  rfl
theorem reservedKind (kind : Byte) (opnd : U32) : Statement (.reservedKind kind opnd) := rsv_zero kind opnd
theorem reservedRsv (tw : TxnWord) : Statement (.reservedRsv tw) := BitVec.and_zero

end Sys2Proof.Laws.Row
end

