-- ==== Sys2Proof/Machine/Text.lean ====
section
/-! DEFINITION. Reading the textual form of R82 and R83: one transaction a line, `;` starts a comment, numbers as in
R12. A line that is none of the forms, or a number outside its range, reads as nothing (log 18). -/

namespace Sys2Proof

/-- The value of a digit in some base up to 16. -/
def digitValue (c : Char) : Nat :=
  let n := c.toNat
  if 48 ≤ n ∧ n ≤ 57 then n - 48
  else if 65 ≤ n ∧ n ≤ 70 then n - 55
  else if 97 ≤ n ∧ n ≤ 102 then n - 87
  else 16

/-- The digits of a number, above a number already read. -/
def readDigits (base : Nat) : List Char → Nat → Option Nat
  | [], value => some value
  | c :: cs, value => if digitValue c < base then readDigits base cs (base * value + digitValue c) else none

/-- A number: `0x` hexadecimal, `0b` binary, otherwise decimal (R12). -/
def readNumber : List Char → Option Nat
  | [] => none
  | '0' :: 'x' :: c :: cs => readDigits 16 (c :: cs) 0
  | '0' :: 'b' :: c :: cs => readDigits 2 (c :: cs) 0
  | c :: cs => readDigits 10 (c :: cs) 0

/-- A number of at most this value. -/
def readUpTo (most : Nat) (word : List Char) : Option Nat :=
  match readNumber word with
  | some n => if n ≤ most then some n else none
  | none => none

/-- A byte. -/
def readByte (word : List Char) : Option Byte := (readUpTo 255 word).map (BitVec.ofNat 8)

/-- Bytes, all of them readable. -/
def readBytes : List (List Char) → Option (List Byte)
  | [] => some []
  | w :: ws =>
    match readByte w, readBytes ws with
    | some b, some bs => some (b :: bs)
    | _, _ => none

/-- The words of a line up to its comment; a comma is a word. The first argument is the word being read, reversed. -/
def lineWords : List Char → List Char → List (List Char)
  | word, [] => if word = [] then [] else [word.reverse]
  | word, c :: cs =>
    let done := if word = [] then [] else [word.reverse]
    if c = ';' then done
    else if c = ' ' ∨ c = '\t' then done ++ lineWords [] cs
    else if c = ',' then done ++ [','] :: lineWords [] cs
    else lineWords (c :: word) cs

/-- A channel, 0..2. -/
def readChan (word : List Char) : Option Chan := (readUpTo 2 word).map (Fin.ofNat 3)

/-- The calls that the words of one line stand for. -/
def readWords : List (List Char) → Option (List HostCall)
  | [] => some []
  | [['R', 'D']] => some [{ tw := opndWord 0x03#8 0#32 }]
  | [['S', 'N', 'A', 'P']] => some [{ tw := opndWord 0x05#8 0#32 }]
  | ['R', 'S', 'T'] :: bytes =>
    match readBytes bytes with
    | some p => if p.length = 17 then some [{ tw := opndWord 0x06#8 0#32, payload := p }] else none
    | none => none
  | [['S', 'E', 'L'], n] => (readByte n).map fun b => [selCall b]
  | [['W', 'R'], v] => (readByte v).map fun b => [wrCall b]
  | [['A', 'D', 'V'], t] => (readUpTo Config.tWfMax t).map fun x => [{ tw := opndWord 0x04#8 (BitVec.ofNat 32 x) }]
  | [['N', 'O', 'I', 'S', 'E', 'F'], f] => (readUpTo 31 f).map fun x => Pseudo.expand (.noisef (BitVec.ofNat 5 x))
  | [['M', 'I', 'X'], m] => (readByte m).map fun b => Pseudo.expand (.mix b)
  | [['W', 'R', 'R'], i, [','], v] =>
    match readByte i, readByte v with
    | some i, some v => some (Pseudo.expand (.wrr i v))
    | _, _ => none
  | [['T', 'O', 'N', 'E'], c, [','], f] =>
    match readChan c, readUpTo 4095 f with
    | some c, some f => some (Pseudo.expand (.tone c (BitVec.ofNat 12 f)))
    | _, _ => none
  | [['V', 'O', 'L'], c, [','], v] =>
    match readChan c, readByte v with
    | some c, some v => some (Pseudo.expand (.vol c v))
    | _, _ => none
  | [['E', 'N', 'V', 'F'], f, [','], s] =>
    match readUpTo 65535 f, readByte s with
    | some f, some s => some (Pseudo.expand (.envf (BitVec.ofNat 16 f) s))
    | _, _ => none
  | _ => none

/-- The calls one line stands for: none for a blank line or a comment alone. -/
def readLine (line : List Char) : Option (List HostCall) := readWords (lineWords [] line)

/-- The calls a text stands for, in the order of its lines. -/
def readText : List (List Char) → Option (List HostCall)
  | [] => some []
  | l :: ls =>
    match readLine l, readText ls with
    | some calls, some rest => some (calls ++ rest)
    | _, _ => none

end Sys2Proof
end

