-- ==== Sys2Proof/Tests/Slice0.lean ====
section
/-! SUPPORT. Words written out from the encodings of R71 and R82, vectors of spec/95_test_vectors.md (all of them at
`NOISE_SEED` = 1, as that file assumes), and a witness for every statement that has hypotheses. -/

namespace Sys2Proof.Tests

open Sys2Proof.Machine Sys2Proof.Claims

/-- Just constructed, with the seed the vectors assume. -/
def fresh : State := State.construct 1

/-- The next state, if there is one. -/
def after : Host.Outcome State Fault Refusal → Option State
  | .next s => some s
  | _ => none

/-- The refusal, if there is one. -/
def refusal : Host.Outcome State Fault Refusal → Option Refusal
  | .refused r => some r
  | _ => none

/-- What a transaction returns to the host. -/
def returned (o : Host.Outcome State Fault Refusal) : Option HostResult := (after o).map (·.result)

/-- A state whose next call is this word and payload. -/
def issuing (s : State) (tw : TxnWord) (payload : List Byte := []) : State := { s with pending := [{ tw, payload }] }

/-! Ill-formed terms are refused by the check. -/

theorem test_illformed_reservedKind : (Instr.reservedKind 0x06 0).wf = false := by decide
theorem test_illformed_reservedRsv : (Instr.reservedRsv 0x0100000000000010).wf = false := by decide
theorem test_bad_inputs_adv : (Instr.adv 0xFFE00000).inputsOk = false := by decide
theorem test_bad_inputs_rst : (Instr.rst [0x20]).inputsOk = false := by decide
theorem test_bad_inputs_reserved :
    (Instr.reservedKind 0x00 0).inputsOk = false ∧ (Instr.reservedRsv 0x0101000000000001).inputsOk = false := by decide

/-! Decoding: KIND in bits 63..56, RSV 0, OPND in bits 31..0 (R70, R71). -/

theorem test_decode_sel : decode 9 0x01000000000000C3 [] = .sel 0xC3 := by decide
theorem test_decode_adv : decode 0 0x0400000080000041 [] = .adv 0x80000041 := by decide
theorem test_decode_snap : decode 0 0x0500000000000000 [] = .snap := by decide
theorem test_decode_rst : decode 0 0x0600000000000000 [0x20, 0xAE] = .rst [0x20, 0xAE] := by decide
theorem test_decode_reservedKind : decode 0 0x0000000000000000 [] = .reservedKind 0x00 0 ∧
    decode 0 0xFF00000000000005 [] = .reservedKind 0xFF 5 := by decide
theorem test_decode_reservedRsv : decode 0 0x0101000000000001 [] = .reservedRsv 0x0101000000000001 ∧
    decode 3 0x0200000000000100 [] = .reservedRsv 0x0200000000000100 ∧
    decode 0 0x0300000000000001 [] = .reservedRsv 0x0300000000000001 := by decide
theorem test_decode_wr :
    decode 0 0x02000000000000A0 [] = .wrSel0 0xA0 ∧
    decode 1 0x02000000000000A1 [] = .wrSel1 0xA1 ∧
    decode 2 0x02000000000000A2 [] = .wrSel2 0xA2 ∧
    decode 3 0x02000000000000A3 [] = .wrSel3 0xA3 ∧
    decode 4 0x02000000000000A4 [] = .wrSel4 0xA4 ∧
    decode 5 0x02000000000000A5 [] = .wrSel5 0xA5 ∧
    decode 6 0x02000000000000A6 [] = .wrSel6 0xA6 ∧
    decode 7 0x02000000000000A7 [] = .wrSel7 0xA7 ∧
    decode 8 0x02000000000000A8 [] = .wrSel8 0xA8 ∧
    decode 9 0x02000000000000A9 [] = .wrSel9 0xA9 ∧
    decode 10 0x02000000000000AA [] = .wrSel10 0xAA ∧
    decode 11 0x02000000000000AB [] = .wrSel11 0xAB ∧
    decode 12 0x02000000000000AC [] = .wrSel12 0xAC ∧
    decode 13 0x02000000000000AD [] = .wrSel13 0xAD ∧
    decode 14 0x02000000000000AE [] = .wrSel14 0xAE ∧
    decode 15 0x02000000000000AF [] = .wrSel15 0xAF := by
  decide
theorem test_decode_rd :
    decode 0 0x0300000000000000 [] = .rdSel0 ∧
    decode 1 0x0300000000000000 [] = .rdSel1 ∧
    decode 2 0x0300000000000000 [] = .rdSel2 ∧
    decode 3 0x0300000000000000 [] = .rdSel3 ∧
    decode 4 0x0300000000000000 [] = .rdSel4 ∧
    decode 5 0x0300000000000000 [] = .rdSel5 ∧
    decode 6 0x0300000000000000 [] = .rdSel6 ∧
    decode 7 0x0300000000000000 [] = .rdSel7 ∧
    decode 8 0x0300000000000000 [] = .rdSel8 ∧
    decode 9 0x0300000000000000 [] = .rdSel9 ∧
    decode 10 0x0300000000000000 [] = .rdSel10 ∧
    decode 11 0x0300000000000000 [] = .rdSel11 ∧
    decode 12 0x0300000000000000 [] = .rdSel12 ∧
    decode 13 0x0300000000000000 [] = .rdSel13 ∧
    decode 14 0x0300000000000000 [] = .rdSel14 ∧
    decode 15 0x0300000000000000 [] = .rdSel15 := by
  decide
theorem test_decodeTableWord : decodeTableWord 64 0x02000000000000A5 = some (.wrSel0 0xA5) ∧
    decodeTableWord 64 0x0600000000000000 = some (.rst (List.replicate 17 0)) := by decide
theorem test_withFetchWord : (after (step (fresh.withFetchWord 64 0x010000000000000D))).map (·.sel) = some 13 := by
  decide

/-! Text (R82, R83, R12). -/

theorem test_readLine : readLine ['S', 'E', 'L', ' ', '0', 'x', '0', 'D', ' ', ';', 'R'] = some [{ tw := 0x010000000000000D }] ∧
    readLine ['A', 'D', 'V', ' ', '0', 'b', '1', '1'] = some [{ tw := 0x0400000000000003 }] ∧
    readLine ['S', 'E', 'L', ' ', '2', '5', '6'] = none ∧ readLine [' ', ';'] = some [] := by decide
/-- R82 gives no text outside its ranges (log 18). -/
theorem test_no_text : (Instr.adv 0xFFE00000).text = none ∧ (Instr.rst [7, 8]).text = none := by decide
theorem test_readLine_pseudo : readLine ['T', 'O', 'N', 'E', ' ', '1', ',', ' ', '2', '5', '7'] =
    some [{ tw := 0x0100000000000002 }, { tw := 0x0200000000000001 }, { tw := 0x0100000000000003 },
      { tw := 0x0200000000000001 }] := by decide

/-! The refusals of section 3.7 of the vectors, in the order of R263. -/

theorem test_refuse_rsv_before_kind : refusal (step (issuing fresh 0x0701000000000000)) = some .reservedBits := by decide
theorem test_refuse_kind : refusal (step (issuing fresh 0x0700000000000000)) = some .reservedKind := by decide
theorem test_refuse_opnd : refusal (step (issuing fresh 0x0100000000000100)) = some .reservedBits := by decide
theorem test_refuse_ticks : refusal (step (issuing fresh 0x04000000FFE00000)) = some .tickRange := by decide
theorem test_refuse_blob_short :
    refusal (step (issuing fresh 0x0600000000000000 (List.replicate 16 0))) = some .malformedBlob := by decide
theorem test_refuse_blob_long :
    refusal (step (issuing fresh 0x0600000000000000 (List.replicate 18 0))) = some .malformedBlob := by decide
theorem test_refuse_overlap :
    refusal (step { fresh with pending := [{ tw := 0x0500000000000000, overlapping := true }] }) = some .hostDuty := by
  decide
theorem test_turn_marks : (issuing fresh 0x0700000000000000).turn = { fresh with refused := some .reservedKind, pos := 1 } := by
  decide

/-! SELECT (V-R2). -/

theorem test_sel_high_is_noop : after (exec (.sel 0x10) { fresh with sel := 5 }) = some { fresh with sel := 5 } := by decide
theorem test_sel_15 : (after (exec (.sel 15) { fresh with sel := 5 })).map (·.sel) = some 15 := by decide

/-! WRITE. -/

/-- V-T4: the restart happens although the value does not change. -/
theorem test_wrSel0_restarts : (after (exec (.wrSel0 0x01) { fresh with tone := #v[⟨32, 20⟩, ⟨32, 20⟩, ⟨32, 20⟩] })).map
    (·.tone) = some #v[⟨32, 0⟩, ⟨32, 20⟩, ⟨32, 20⟩] := by decide
/-- V-W2: bits 7..4 of the coarse register are ignored and 0 is clamped to 1, but the byte is stored whole. -/
theorem test_wrSel1_clamps : (after (exec (.wrSel1 0xF0) fresh)).map (fun s => (s.regs[1], s.tone[0])) =
    some (0xF0, ⟨32, 0⟩) := by decide
theorem test_wrSel2 : (after (exec (.wrSel2 0x34) fresh)).map (·.tone[1]) = some ⟨32 * 0x34, 0⟩ := by decide
/-- V-W8: the largest tone divisor. -/
theorem test_wrSel3_largest : (after (exec (.wrSel3 0x0F) { fresh with regs := fresh.regs.set 2 0xFF })).map (·.tone[1]) =
    some ⟨131040, 0⟩ := by decide
theorem test_wrSel4 : (after (exec (.wrSel4 0x02) fresh)).map (·.tone[2]) = some ⟨64, 0⟩ := by decide
/-- V-T5. -/
theorem test_wrSel5 : (after (exec (.wrSel5 0xA2) { fresh with regs := fresh.regs.set 4 0x34 })).map (·.tone[2]) =
    some ⟨18048, 0⟩ := by decide
/-- V-W8 and V-N4: the phase is kept, whatever the divisor. -/
theorem test_wrSel6 : (after (exec (.wrSel6 0xE1) { fresh with noise := ⟨992, 900, 1, true⟩ })).map (·.noise) =
    some ⟨32, 900, 1, true⟩ := by decide
/-- V-R4: no recompute. -/
theorem test_wr_store_only : [Instr.wrSel7 0x1F, .wrSel8 0x1F, .wrSel9 0x1F, .wrSel10 0x1F, .wrSel14 0x1F, .wrSel15 0x1F].map
    (fun i => (after (exec i { fresh with tone := #v[⟨32, 10⟩, ⟨32, 10⟩, ⟨32, 10⟩] })).map (·.tone)) =
    List.replicate 6 (some #v[⟨32, 10⟩, ⟨32, 10⟩, ⟨32, 10⟩]) := by decide
theorem test_wrSel11 : (after (exec (.wrSel11 0x34) fresh)).map (·.env) = some ⟨1664, 0, .lowerHoldLow, 0, .lower⟩ := by decide
/-- V-R5. -/
theorem test_wrSel12 : (after (exec (.wrSel12 0x12) { fresh with regs := fresh.regs.set 11 0x34 })).map (·.env.divisor) =
    some 149120 := by decide
/-- V-E1: the high nibble of the shape byte is ignored. -/
theorem test_wrSel13 : (after (exec (.wrSel13 0xAE) fresh)).map (·.env) = some ⟨32, 0, .raiseLowerLoop, 0, .raise⟩ := by decide

/-! READ (V-R1). -/

theorem test_read_masks : [Instr.rdSel0, .rdSel1, .rdSel2, .rdSel3, .rdSel4, .rdSel5, .rdSel6, .rdSel7, .rdSel8, .rdSel9, .rdSel10, .rdSel11, .rdSel12, .rdSel13, .rdSel14, .rdSel15].map
    (fun i => returned (exec i { fresh with regs := Vector.replicate 16 0xFF })) =
    [0xFF, 0x0F, 0xFF, 0x0F, 0xFF, 0x0F, 0x1F, 0xFF, 0x1F, 0x1F, 0x1F, 0xFF, 0xFF, 0x0F, 0xFF, 0xFF].map (fun b => some (.byte b)) := by decide

/-! Generators. -/

/-- V-T1. -/
theorem test_tone_advance : [0, 15, 16, 31, 32, 33, 64, 65, 100, 0xFFDFFFFF].map
    (fun t => let g := Tone.advance t ⟨32, 0⟩; (g.bit, g.phase.toNat)) =
    [(true, 0), (true, 15), (false, 16), (false, 31), (false, 32), (true, 1), (false, 32), (true, 1), (true, 4), (false, 31)] := by
  decide
/-- V-N2. -/
theorem test_lfsr_steps : [0x10000, 0x1FFFF, 0x00009, 0x00008].map
    (fun x => let g := Noise.lfsrStep ⟨32, 0, x, false⟩; (g.shift.toNat, g.level)) =
    [(0x08000, false), (0x0FFFF, true), (0x00004, true), (0x08004, false)] := by decide
/-- V-N3. -/
theorem test_noise_advance : Noise.advance 100 ⟨32, 0, 0x00001, false⟩ = ⟨32, 4, 0x02000, true⟩ := by decide
set_option maxRecDepth 4000 in
/-- V-N4: 28 pending crossings at t = 0. -/
theorem test_noise_pending : Noise.advance 0 ⟨32, 900, 0x00001, false⟩ = ⟨32, 4, 0x04012, false⟩ := by decide
/-- V-N5: the cycle of length 7. -/
theorem test_lfsr_seven_cycle : (Noise.lfsrSteps 7 ⟨32, 0, 0x02E5C, false⟩).shift = 0x02E5C ∧
    (Noise.lfsrSteps 1 ⟨32, 0, 0x02E5C, false⟩).shift = 0x0972E := by decide
/-- V-E2: the strict test. -/
theorem test_env_strict : (Env.advance 32 (Env.setFreqShape 1 0x08)).level = 15 ∧
    (Env.advance 33 (Env.setFreqShape 1 0x08)).level = 14 := by decide
set_option maxRecDepth 4000 in
/-- V-E3: many crossings in one call. -/
theorem test_env_many : Env.advance 513 (Env.setFreqShape 1 0x08) = ⟨32, 1, .lowerLoop, 0, .lower⟩ ∧
    Env.advance 545 (Env.setFreqShape 1 0x0A) = ⟨32, 1, .lowerRaiseLoop, 1, .raise⟩ := by decide
/-- V-E5: the largest divisor. -/
theorem test_env_largest : (Env.advance 0xFFDFFFFF (Env.setFreqShape 65535 0x00)).phase = 65503 ∧
    (Env.advance 0xFFDFFFFF (Env.setFreqShape 65535 0x00)).block = .low := by decide
/-- V-E1: the levels after 15, 16 and 32 crossings, by shape code. -/
theorem test_env_codes : (List.range 16).map (fun code => [481, 513, 1025].map fun t =>
      (Env.advance t (Env.setFreqShape 1 (BitVec.ofNat 8 code))).level.toNat) =
    [[0, 0, 0], [0, 0, 0], [0, 0, 0], [0, 0, 0], [15, 0, 0], [15, 0, 0], [15, 0, 0], [15, 0, 0],
     [0, 15, 15], [0, 0, 0], [0, 0, 15], [0, 15, 15], [15, 0, 0], [15, 15, 15], [15, 15, 0], [15, 0, 0]] := by decide

/-! ADVANCE. -/

/-- V-M1, step 3. -/
theorem test_adv_crossing : after (exec (.adv 31) { fresh with
      tone := #v[⟨32, 2⟩, ⟨32, 2⟩, ⟨32, 2⟩], noise := ⟨32, 2, 1, false⟩, env := ⟨32, 2, .lowerHoldLow, 0, .lower⟩ }) =
    some { fresh with
      tone := #v[⟨32, 1⟩, ⟨32, 1⟩, ⟨32, 1⟩], noise := ⟨32, 1, 0x08000, true⟩, env := ⟨32, 1, .lowerHoldLow, 1, .lower⟩,
      result := .sample 15 } := by decide
/-- V-M2, second column: tone phase 1 becomes 1, noise phase 1 makes its first crossing. -/
theorem test_adv_mixer : [0x36, 0x3E, 0x37, 0x3F].map (fun m => returned (exec (.adv 16) { fresh with
      regs := (fresh.regs.set 7 m).set 8 0x0F
      tone := #v[⟨32, 2⟩, ⟨32, 2⟩, ⟨32, 2⟩], noise := ⟨32, 2, 0x08000, true⟩ })) =
    [some (.sample 10), some (.sample 10), some (.sample 8202), some (.sample 8202)] := by decide

/-! SNAPSHOT and RESTORE. -/

/-- Program P3: the registers it leaves, and their snapshot. -/
def p3 : RegFile := ((((fresh.regs.set 0 0xFF).set 1 0xFF).set 6 0xE0).set 13 0xAE)

/-- The blob of V-S1. -/
def blobP3 : Vector Byte 17 := #v[0x07, 0xFF, 0xFF, 0, 0, 0, 0, 0xE0, 0, 0, 0, 0, 0, 0, 0xAE, 0, 0]

theorem test_snap : returned (exec .snap { fresh with regs := p3, sel := 7 }) = some (.blob blobP3) := by decide
/-- V-S2. -/
theorem test_rst : after (exec (.rst blobP3.toList) fresh) = some { fresh with
    regs := p3, sel := 7, tone := #v[⟨131040, 0⟩, ⟨32, 0⟩, ⟨32, 0⟩], env := ⟨32, 0, .raiseLowerLoop, 0, .raise⟩ } := by decide
/-- V-S4: a stored selection above 15. -/
theorem test_rst_high_selection : (after (exec (.rst (0x20 :: List.replicate 16 0)) fresh)).map (·.sel) = some 15 := by decide

/-! Witnesses: a state and operands that meet the hypotheses of each statement. -/

/-- A state with a call pending. -/
def selecting : State := issuing fresh 0x010000000000000D

theorem witness_ConstructionIsSilent : (32 : U32).toNat ≤ 32 := by decide
theorem witness_DecodeEncodeRoundTrip : (Instr.wrSel5 0xA5).wf = true ∧ (Instr.wrSel5 0xA5).selKey = some 5 ∧
    (Instr.reservedKind 0xFF 0).wf = true ∧ (Instr.reservedRsv 0x0600000000000001).wf = true := by decide
theorem witness_StepRunsDecodedTransaction : selecting.pending = [{ tw := 0x010000000000000D }] ∧
    decode selecting.sel 0x010000000000000D [] = .sel 13 := by decide
theorem witness_StepWithoutCallKeepsState : fresh.pending = [] := by decide
theorem witness_OverlappingCallIsRefused :
    ({ fresh with pending := [{ tw := 0, overlapping := true }] } : State).pending = [{ tw := 0, overlapping := true }] := by
  decide
/-- Each clause of the order at a boundary: RSV = 1; kind 0 and 7; a byte operand of 0x100; a tick count one above the
bound; 16 payload bytes; and a completing word at the bound. -/
theorem witness_RefusalOrderAndCompletion :
    (0x0600000100000001 : TxnWord).toNat / 2 ^ 32 % 2 ^ 24 ≠ 0 ∧
    (0x00000000FFFFFFFF : TxnWord).toNat / 2 ^ 56 = 0 ∧ 7 ≤ (0x0700000000000000 : TxnWord).toNat / 2 ^ 56 ∧
    (0x0200000000000100 : TxnWord).toNat % 2 ^ 32 / 256 ≠ 0 ∧ (0x0500000000000001 : TxnWord).toNat % 2 ^ 32 ≠ 0 ∧
    0xFFDFFFFF < (0x04000000FFE00000 : TxnWord).toNat % 2 ^ 32 ∧ (List.replicate 16 (0 : Byte)).length ≠ 17 ∧
    (0x04000000FFDFFFFF : TxnWord).toNat % 2 ^ 32 ≤ 0xFFDFFFFF := by decide
theorem witness_StepConsumesOneCall : selecting.pending = [{ tw := 0x010000000000000D }] ∧
    after (step selecting) = some { fresh with sel := 13, pos := 1 } := by decide
theorem witness_ReadAtSelection : (issuing fresh 0x0300000000000000 [1]).pending =
    { tw := 0x0300000000000000, payload := [1] } :: [] := by decide
/-- A state the invariant holds in that is not the construction state: noise runs with its phase above its divisor. -/
def running : State := { fresh with
  regs := (fresh.regs.set 8 0x1F).set 11 0x02
  tone := #v[⟨32, 32⟩, ⟨32, 1⟩, ⟨32, 0⟩]
  noise := ⟨32, 900, 0x08004, true⟩
  env := ⟨64, 64, .lowerHoldLow, 15, .low⟩
  pending := [{ tw := 0x04000000FFDFFFFF }] }

/-- One state for each index, so for each branch of the chain: the word completes there and what it restarts differs by
branch (R80), here seen in the tone phases, the noise divisor and the envelope phase. -/
theorem witness_WriteAtSelection : ∀ k : RegIdx,
    let s : State := { issuing running 0x0200000000000003 with sel := k, tone := #v[⟨32, 9⟩, ⟨32, 9⟩, ⟨32, 9⟩] }
    s.pending = { tw := BitVec.ofNat 64 (0x0200000000000000 + (0x03 : Byte).toNat), payload := [] } :: [] ∧
    (after (step s)).map (fun t => (t.tone[0].phase, t.tone[1].phase, t.tone[2].phase, t.noise.divisor, t.env.phase)) =
      some (if k.val ≤ 1 then 0 else 9, if k.val = 2 ∨ k.val = 3 then 0 else 9, if k.val = 4 ∨ k.val = 5 then 0 else 9,
        if k.val = 6 then 96 else 32, if 11 ≤ k.val ∧ k.val ≤ 13 then 0 else 64) := by decide
theorem witness_SelectReadSnapshotIdempotent : Instr.rdSel9 = decodeRead 9 := by decide
theorem witness_generators : 0 < (⟨32, 0⟩ : Tone).divisor.toNat ∧ 0 < (⟨32, 900, 1, false⟩ : Noise).divisor.toNat ∧
    0 < (⟨32, 32, .lowerLoop, 15, .lower⟩ : Env).divisor.toNat ∧ (15 : Fin 17).val ≤ 15 := by decide
theorem witness_LfsrStepPermutes : (0x1FFFF : BitVec 17) ≠ 0 ∧ (0x0FFFF : BitVec 17).toNat ≤ 0xFFFF ∧
    (Noise.lfsrStep ⟨32, 0, 0x0FFFF, false⟩).shift = (Noise.lfsrStep ⟨64, 9, 0x0FFFF, true⟩).shift := by decide
theorem witness_EnvelopeLevelSequence : 1 ≤ 65535 ∧ 65535 ≤ 65535 := by decide
theorem witness_AdvanceResult : (0xFFDFFFFF : U32).toNat ≤ 0xFFDFFFFF ∧ noiseUnused (fresh.regs.set 7 0x3F) ∧
    ¬noiseUnused (fresh.regs.set 7 0x37) := by decide
theorem witness_AdvanceAboveBoundIsRefused : 0xFFDFFFFF < (0xFFE00000 : U32).toNat := by decide
theorem witness_NoisePausesWhileUnused : noiseUnused ({ fresh with regs := fresh.regs.set 7 0x3F } : State).regs ∧
    (after (exec (.adv 100) { fresh with regs := fresh.regs.set 7 0x3F })).isSome = true ∧
    (after (exec (.wrSel6 0x1F) fresh)).isSome = true := by decide
theorem witness_UnusedBitsAreSilent : SameSound fresh.regs ((((fresh.regs.set 1 0xF0).set 7 0xC0).set 8 0xE0).set 14 0x99) ∧
    (after (exec (.adv 40) fresh)).isSome = true := by
  constructor
  · unfold SameSound; decide
  · decide
theorem witness_RestoreResult : blobP3.toList.length = 17 ∧ (List.replicate 18 (0 : Byte)).length ≠ 17 := by decide
theorem witness_SnapshotRestoreRoundTrip :
    ∀ c ∈ [selCall 13, wrCall 0xAE, ({ tw := 0x0300000000000000 } : HostCall)], registerAccess c := by
  intro c h
  simp only [List.mem_cons, List.not_mem_nil, or_false] at h
  rcases h with rfl | rfl | rfl
  · exact .inl ⟨13, rfl⟩
  · exact .inr (.inl ⟨0xAE, rfl⟩)
  · exact .inr (.inr rfl)

theorem witness_invariant : running.Inv := by
  refine ⟨fun c => ⟨?_, ?_⟩, ⟨?_, ?_, ?_⟩, ⟨?_, ?_, ?_, ?_, ?_⟩⟩
  · revert c; decide
  · revert c; decide
  all_goals decide
theorem witness_invariant_step : (after (step { running with pending := [{ tw := 0x0400000000000021 }] })).isSome = true := by
  decide
theorem witness_ConstructionMeetsInvariant : (1 : BitVec 17) ≠ 0 := by decide
theorem witness_refused : ({ fresh with refused := some .tickRange } : State).refused = some .tickRange ∧
    refusal (step (issuing fresh 0x04000000FFFFFFFF)) = some .tickRange := by decide
theorem witness_SafeRunIsARun : SafeRun 2 selecting := by unfold SafeRun; decide
theorem witness_OutcomeDependsOnCoreOnly : SameCore fresh selecting ∧ (after (exec .snap fresh)).isSome = true ∧
    refusal (exec (.rst []) fresh) = some .malformedBlob := ⟨⟨rfl, rfl, rfl, rfl, rfl⟩, by decide, by decide⟩
theorem witness_GeneratorsAreHidden : fresh.regs = { running with regs := fresh.regs }.regs ∧
    fresh.noise ≠ running.noise ∧ (after (exec .rdSel1 fresh)).isSome = true := by decide
theorem witness_PseudoTransactionEffects : (15 : Byte).toNat ≤ 15 := by decide
theorem witness_PseudoWriteAboveFifteen : 15 < (16 : Byte).toNat ∧ 15 < (0xFF : Byte).toNat := by decide

end Sys2Proof.Tests
end

section
/-! The family `00_scope`: what construction decides (R40 to R45), arithmetic within 32 bits (R14), refusals (R262),
and that a transaction sees the core's state alone (R15). -/

namespace Sys2Proof.Machine

/-! Construction. -/

/-- R11: the range of the seed, whichever value this machine has (log 1). -/
theorem noiseSeed_bounds : 1 ≤ Config.noiseSeed.toNat ∧ Config.noiseSeed.toNat ≤ 0x1FFFF := by
  have h := Config.noiseSeedIndex.isLt
  simp only [Config.noiseSeed, BitVec.toNat_ofNat]
  omega

/-- Settles O2: each value is the one `State.construct` writes down; the seed's range is that of its index. -/
theorem constructionDecidedValues : Obligations.ConstructionDecidedValues :=
  ⟨rfl, rfl, noiseSeed_bounds, rfl, rfl, rfl⟩

/-! Bounds of the generators under the invariant. -/

/-- R27, R28: the clamp makes the divisor positive, and 131040 = 32 × 4095 is the largest it bounds the phase by. -/
theorem ToneInv.bounds {r : RegFile} {c : Chan} {g : Tone} (h : ToneInv r c g) :
    0 < g.divisor.toNat ∧ g.phase.toNat ≤ 131040 := by
  obtain ⟨hdivisor, hphase⟩ := h
  have := toneFC_bounds r c
  omega

/-- R30: the clamp makes the divisor positive; the phase has its own bound, 992 = 32 × 31. -/
theorem NoiseInv.bounds {r : RegFile} {g : Noise} (h : NoiseInv r g) :
    0 < g.divisor.toNat ∧ g.phase.toNat ≤ 992 := by
  obtain ⟨hdivisor, hphase, -⟩ := h
  have := noiseFC_bounds r
  omega

/-- R33: the clamp makes the divisor positive, and 2097120 = 32 × 65535 is the largest it bounds the phase by. -/
theorem EnvInv.bounds {r : RegFile} {g : Env} (h : EnvInv r g) :
    0 < g.divisor.toNat ∧ g.phase.toNat ≤ 2097120 := by
  obtain ⟨hdivisor, hphase, -⟩ := h
  have := envFC_bounds r
  omega

/-- Settles O45: `T_WF_MAX` leaves 0x200000 below 2^32, and the largest phase
bound, the envelope's 2097120, is less. -/
theorem phasesNeverOverflow : Obligations.PhasesNeverOverflow := by
  intro s t hinv ht
  have hnoise := hinv.noise.bounds
  have henv := hinv.env.bounds
  refine ⟨fun c => ?_, ?_, ?_⟩
  · have htone := (hinv.tone c).bounds
    omega
  · omega
  · omega

/-! Refusals. -/

/-- A turn whose step is refused is the mark and nothing more (R262, log 5). -/
theorem State.turn_of_refused {s : State} {r : Refusal} (h : step s = .refused r) : s.turn = s.markRefused r := by
  unfold State.turn
  rw [h]

theorem State.markRefused_sameCore (r : Refusal) (s : State) : SameCore (s.markRefused r) s :=
  ⟨rfl, rfl, rfl, rfl, rfl⟩

/-- R262: a transaction is refused with one of the codes 1 to 4; code 5 is the host's duty. -/
theorem exec_refused_code {i : Instr} {s : State} {r : Refusal} (h : exec i s = .refused r) :
    ∃ code, r.code = some code ∧ 1 ≤ code ∧ code ≤ 4 := by
  obtain ⟨_, -, -, rfl⟩ | ⟨_, -, -, rfl⟩ | ⟨_, _, -, rfl⟩ | ⟨_, -, rfl⟩ := exec_refused h
  · exact ⟨3, rfl, by decide⟩
  · exact ⟨4, rfl, by decide⟩
  · exact ⟨2, rfl, by decide⟩
  · exact ⟨1, rfl, by decide⟩

/-- R262: a step is refused with one of the codes 1 to 5. -/
theorem step_refused_code {s : State} {r : Refusal} (h : step s = .refused r) :
    ∃ code, r.code = some code ∧ 1 ≤ code ∧ code ≤ 5 := by
  obtain ⟨-, hidle⟩ | ⟨call, rest, -, hcall⟩ := step_cases s
  · rw [hidle] at h
    cases h
  · rw [hcall] at h
    split at h
    · cases h
      exact ⟨5, rfl, by decide⟩
    · obtain ⟨code, hcode, hlo, hhi⟩ := exec_refused_code h
      exact ⟨code, hcode, hlo, by omega⟩

/-- Settles O47: the turn is `State.markRefused`, whose fields say what stays, and the refusal is one of
`step_refused_code`. -/
theorem refusedTransactionChangesNothing : Obligations.RefusedTransactionChangesNothing := by
  intro s r h
  rw [State.turn_of_refused h]
  exact ⟨State.markRefused_sameCore r s, rfl, rfl, rfl, step_refused_code h⟩

/-- Whether a transaction is refused, and how, does not depend on the state (R72, R210, R241). -/
theorem exec_refused_of_refused {i : Instr} {s : State} {r : Refusal} (h : exec i s = .refused r) (t : State) :
    exec i t = .refused r := by
  obtain ⟨u, rfl, hrange, rfl⟩ | ⟨p, rfl, hlength, rfl⟩ | ⟨_, _, rfl, rfl⟩ | ⟨_, rfl, rfl⟩ := exec_refused h
  · exact if_pos hrange
  · exact if_neg hlength
  · rfl
  · rfl

/-! Every operation on the state takes equal core states to equal core states (R15). -/

namespace SameCore

variable {s t : State}

/-- The result is no part of the core, so it may differ. -/
theorem setResult (h : SameCore s t) (r r' : HostResult) : SameCore (s.setResult r) (t.setResult r') :=
  ⟨h.regs, h.sel, h.tone, h.noise, h.env⟩

theorem select (h : SameCore s t) (n : Byte) : SameCore (s.select n) (t.select n) := by
  obtain ⟨hregs, hsel, htone, hnoise, henv⟩ := h
  constructor <;> simp [State.select_sel, *]

theorem writeAt (h : SameCore s t) (i : RegIdx) (v : Byte) : SameCore (s.writeAt i v) (t.writeAt i v) := by
  obtain ⟨hregs, hsel, htone, hnoise, henv⟩ := h
  obtain ⟨hstone, hsnoise, hsenv⟩ := s.writeAt_generators i v
  obtain ⟨httone, htnoise, htenv⟩ := t.writeAt_generators i v
  constructor
  · simp [hregs]
  · simp [hsel]
  · rw [hstone, httone, hregs, htone]
  · rw [hsnoise, htnoise, hregs, hnoise]
  · rw [hsenv, htenv, hregs, henv]

theorem write (h : SameCore s t) (v : Byte) : SameCore (s.write v) (t.write v) := by
  unfold State.write
  rw [h.sel]
  exact h.writeAt _ v

theorem replay (h : SameCore s t) (i : Nat) (bytes : List Byte) :
    SameCore (State.replay i bytes s) (State.replay i bytes t) := by
  induction bytes generalizing i s t with
  | nil => exact h
  | cons b bytes ih => exact ih ((h.select _).write b) (i + 1)

theorem restore (h : SameCore s t) (payload : List Byte) : SameCore (s.restore payload) (t.restore payload) := by
  cases payload with
  | nil => exact h
  | cons b bytes => exact (h.replay 0 bytes).select b

theorem advanceGenerators (h : SameCore s t) (ticks : Nat) :
    SameCore (s.advanceGenerators ticks) (t.advanceGenerators ticks) := by
  obtain ⟨hregs, hsel, htone, hnoise, henv⟩ := h
  constructor <;> simp [*]

/-! What a transaction returns is read off the core. -/

theorem readAt_eq (h : SameCore s t) (i : RegIdx) : s.readAt i = t.readAt i := by
  unfold State.readAt
  rw [h.regs]

theorem blob_eq (h : SameCore s t) : s.blob = t.blob := by
  unfold State.blob
  rw [h.regs, h.sel]

theorem mix_eq (h : SameCore s t) : s.mix = t.mix := by
  unfold State.mix
  rw [h.regs, h.tone, h.noise, h.env]

/-- A transaction that completes from one of two equal core states completes from the other alike. -/
theorem completes {i : Instr} {u : State} (h : SameCore s t) (hu : Completes i s u) :
    ∃ w, Completes i t w ∧ SameCore u w ∧ u.result = w.result := by
  cases hu with
  | sel n => exact ⟨_, .sel n t, (h.select n).setResult _ _, rfl⟩
  | write k v => exact ⟨_, .write k v t, (h.writeAt k v).setResult _ _, rfl⟩
  | read k => exact ⟨_, .read k t, h.setResult _ _, congrArg HostResult.byte (h.readAt_eq k)⟩
  | adv ticks _ hticks =>
    have hadv := h.advanceGenerators ticks.toNat
    exact ⟨_, .adv ticks t hticks, hadv.setResult _ _, by simp [hadv.mix_eq]⟩
  | snap => exact ⟨_, .snap t, h.setResult _ _, congrArg HostResult.blob h.blob_eq⟩
  | rst payload _ hlength => exact ⟨_, .rst payload t hlength, (h.restore payload).setResult _ _, rfl⟩

end SameCore

/-- Settles O49: a completion carries over row by row (`SameCore.completes`), a refusal holds in every state. -/
theorem outcomeDependsOnCoreOnly : Obligations.OutcomeDependsOnCoreOnly := by
  intro i s t h
  refine ⟨fun u hu => ?_, fun r hr => exec_refused_of_refused hr t⟩
  obtain ⟨w, hw, hcore, hresult⟩ := h.completes (exec_next hu)
  exact ⟨w, hw.exec, hcore, hresult⟩

end Sys2Proof.Machine
end

section
/-! The family `10_state`: what the registers make of the generators (R24, R27 to R33), the LFSR step (R122, R125), the
invariant of the state, and the accesses that do not see the generators (R37). -/

namespace Sys2Proof.Machine

open Sys2Proof.Claims

/-! Which index has which effect (R80), and the generators after a WRITE, said by that index. -/

theorem writeEffect_eq_restartTone_iff :
    ∀ (i : RegIdx) (c : Chan), writeEffect i = .restartTone c ↔ i.val = 2 * c.val ∨ i.val = 2 * c.val + 1 := by
  decide

theorem writeEffect_eq_setNoise_iff : ∀ i : RegIdx, writeEffect i = .setNoise ↔ i.val = 6 := by decide

theorem writeEffect_eq_restartEnv_iff :
    ∀ i : RegIdx, writeEffect i = .restartEnv ↔ i.val = 11 ∨ i.val = 12 ∨ i.val = 13 := by decide

/-- R177: a WRITE to a tone pair restarts that tone, and keeps the other two. -/
theorem State.writeAt_tone_get (i : RegIdx) (v : Byte) (s : State) (c : Chan) :
    (s.writeAt i v).tone[c] =
      if i.val = 2 * c.val ∨ i.val = 2 * c.val + 1 then Tone.setFrequency (toneFC (s.writeAt i v).regs c)
      else s.tone[c] := by
  obtain ⟨htone, -, -⟩ := s.writeAt_generators i v
  simp only [← writeEffect_eq_restartTone_iff, State.writeAt_regs]
  cases heffect : writeEffect i with
  | restartTone e =>
    by_cases hce : e = c
    · subst hce
      simp [htone, heffect]
    · have hval : e.val ≠ c.val := fun h => hce (Fin.ext h)
      simp [htone, heffect, hce, Vector.getElem_set_ne, hval]
  | setNoise | restartEnv | storeOnly => simp [htone, heffect]

/-- R178: a WRITE to register 6 sets the noise divisor. -/
theorem State.writeAt_noise (i : RegIdx) (v : Byte) (s : State) :
    (s.writeAt i v).noise =
      if i.val = 6 then s.noise.setFrequency (noiseFC (s.writeAt i v).regs) else s.noise := by
  obtain ⟨-, hnoise, -⟩ := s.writeAt_generators i v
  simp only [← writeEffect_eq_setNoise_iff, hnoise, State.writeAt_regs]
  cases writeEffect i <;> simp

/-- R179: a WRITE to register 11, 12 or 13 restarts the envelope. -/
theorem State.writeAt_env (i : RegIdx) (v : Byte) (s : State) :
    (s.writeAt i v).env =
      if i.val = 11 ∨ i.val = 12 ∨ i.val = 13 then
        Env.setFreqShape (envFC (s.writeAt i v).regs) (s.writeAt i v).regs[13]
      else s.env := by
  obtain ⟨-, -, henv⟩ := s.writeAt_generators i v
  simp only [← writeEffect_eq_restartEnv_iff, henv, State.writeAt_regs]
  cases writeEffect i <;> simp

/-! A register outside a generator's own does not move what the generator takes from the registers. -/

section
variable (r : RegFile) (i : RegIdx) (v : Byte)

theorem toneFC_set_of_ne {c : Chan} (h : ¬(i.val = 2 * c.val ∨ i.val = 2 * c.val + 1)) :
    toneFC (r.set i.val v i.isLt) c = toneFC r c := by
  rw [not_or] at h
  obtain ⟨hfine, hcoarse⟩ := h
  simp [toneFC, toneF, Vector.getElem_set_ne, hfine, hcoarse]

theorem noiseFC_set_of_ne (h : i.val ≠ 6) : noiseFC (r.set i.val v i.isLt) = noiseFC r := by
  simp [noiseFC, noiseF, Vector.getElem_set_ne, h]

theorem envFC_set_of_ne (hfine : i.val ≠ 11) (hcoarse : i.val ≠ 12) :
    envFC (r.set i.val v i.isLt) = envFC r := by
  simp [envFC, envF, Vector.getElem_set_ne, hfine, hcoarse]

end

/-! The LFSR step (R122, R125). -/

/-- R122 (D24): bit j takes bit j + 1, and bit 15 the feedback beside it. -/
theorem Noise.lfsrStep_shift_getLsbD (g : Noise) (j : Nat) :
    g.lfsrStep.shift.getLsbD j =
      (g.shift.getLsbD (j + 1) || (decide (j = 15) && (g.shift.getLsbD 0 ^^ g.shift.getLsbD 3))) := by
  have htop : (0x10000#17).getLsbD (j + 1) = decide (j = 15) := by
    rw [show 0x10000#17 = BitVec.twoPow 17 16 from rfl, BitVec.getLsbD_twoPow]
    simp [eq_comm]
  simp only [Noise.lfsrStep, BitVec.getLsbD_ushiftRight, Nat.add_comm 1 j]
  cases g.shift.getLsbD 0 ^^ g.shift.getLsbD 3
  · simp
  · rw [← htop]
    simp

/-- R31: a step to 0 finds bits 1 to 16 clear, so bit 3 too, and then a feedback of 0 means that bit 0 is clear. -/
theorem Noise.lfsrStep_shift_ne_zero {g : Noise} (h : g.shift ≠ 0) : g.lfsrStep.shift ≠ 0 := by
  intro hzero
  have hbit (j : Nat) : (g.shift.getLsbD (j + 1) ||
      (decide (j = 15) && (g.shift.getLsbD 0 ^^ g.shift.getLsbD 3))) = false := by
    rw [← Noise.lfsrStep_shift_getLsbD, hzero]
    simp
  have hhigh (j : Nat) : g.shift.getLsbD (j + 1) = false := (Bool.or_eq_false_iff.mp (hbit j)).1
  have hlow : g.shift.getLsbD 0 = false := by
    simpa only [hhigh 2, Bool.xor_false, decide_true, Bool.true_and] using (Bool.or_eq_false_iff.mp (hbit 15)).2
  refine h (BitVec.eq_of_getLsbD_eq (y := 0#17) fun j _ => ?_)
  cases j with
  | zero => rw [hlow, BitVec.getLsbD_zero]
  | succ j => rw [hhigh j, BitVec.getLsbD_zero]

/-- R125: the shift clears bit 16. -/
theorem Noise.lfsrStep_shift_le (g : Noise) : g.lfsrStep.shift.toNat ≤ 0xFFFF := by
  simp only [Noise.lfsrStep, BitVec.toNat_ushiftRight, Nat.shiftRight_one]
  omega

/-- R125: with bit 16 clear, bit 15 of the successor is the feedback, which gives bit 0 back. -/
theorem Noise.lfsrStep_shift_injective {g h : Noise} (hg : g.shift.toNat ≤ 0xFFFF) (hh : h.shift.toNat ≤ 0xFFFF)
    (heq : g.lfsrStep.shift = h.lfsrStep.shift) : g.shift = h.shift := by
  have hbit (j : Nat) := congrArg (BitVec.getLsbD · j) heq
  simp only [Noise.lfsrStep_shift_getLsbD] at hbit
  have htop {x : BitVec 17} (hx : x.toNat ≤ 0xFFFF) : x.getLsbD 16 = false :=
    Nat.testBit_lt_two_pow (by omega)
  have hhigh (j : Nat) : g.shift.getLsbD (j + 1) = h.shift.getLsbD (j + 1) := by
    by_cases hj : j = 15
    · subst hj
      rw [htop hg, htop hh]
    · simpa [hj] using hbit j
  have hlow : g.shift.getLsbD 0 = h.shift.getLsbD 0 := by
    simpa only [htop hg, htop hh, hhigh 2, Bool.false_or, decide_true, Bool.true_and, Bool.xor_left_inj] using hbit 15
  apply BitVec.eq_of_getLsbD_eq
  intro j _
  cases j with
  | zero => exact hlow
  | succ j => exact hhigh j

/-- Settles O26, by the bits of the step. -/
theorem lfsrStepPermutes : Obligations.LfsrStepPermutes :=
  ⟨fun g hg => ⟨Noise.lfsrStep_shift_ne_zero hg, g.lfsrStep_shift_le⟩,
    fun _ _ hg hh heq => Noise.lfsrStep_shift_injective hg hh heq⟩

theorem Noise.lfsrSteps_shift_ne_zero (n : Nat) {g : Noise} (h : g.shift ≠ 0) :
    (Noise.lfsrSteps n g).shift ≠ 0 := by
  induction n generalizing g with
  | zero => exact h
  | succ n ih => exact ih (Noise.lfsrStep_shift_ne_zero h)

/-! The invariant of each generator: a restart from the registers establishes it, an advance keeps it, and so does a
WRITE to a register the generator does not look at. -/

/-- R100: 32 × f is exact in 32 bits for the clamped values of every generator. -/
theorem toNat_divisor_of_le {f : Nat} (h : f ≤ 65535) : (BitVec.ofNat 32 (32 * f)).toNat = 32 * f := by
  rw [BitVec.toNat_ofNat]
  omega

theorem ToneInv.restart (r : RegFile) (c : Chan) : ToneInv r c (Tone.setFrequency (toneFC r c)) where
  divisor := toNat_divisor_of_le (by have := toneFC_bounds r c; omega)
  phase := Nat.zero_le _

theorem ToneInv.advance {r : RegFile} {c : Chan} {g : Tone} (h : ToneInv r c g) (t : Nat) :
    ToneInv r c (g.advance t) where
  divisor := h.divisor
  phase := by
    rw [Tone.advance_phase t g h.bounds.1]
    exact reducedPhase_le h.bounds.1

theorem ToneInv.set_of_ne {r : RegFile} {c : Chan} {g : Tone} (h : ToneInv r c g) {i : RegIdx} (v : Byte)
    (hi : ¬(i.val = 2 * c.val ∨ i.val = 2 * c.val + 1)) : ToneInv (r.set i.val v i.isLt) c g where
  divisor := by rw [toneFC_set_of_ne r i v hi, h.divisor]
  phase := h.phase

/-- R120: the new divisor is what the registers give; the phase may stay above it (R30). -/
theorem NoiseInv.setFrequency {g : Noise} (hphase : g.phase.toNat ≤ 992) (hshift : g.shift ≠ 0) (r : RegFile) :
    NoiseInv r (g.setFrequency (noiseFC r)) where
  divisor := by
    have hbounds := noiseFC_bounds r
    rw [Noise.setFrequency_divisor, Nat.max_eq_left hbounds.1]
    exact toNat_divisor_of_le (by omega)
  phase := hphase
  shift := hshift

theorem NoiseInv.advance {r : RegFile} {g : Noise} (h : NoiseInv r g) (t : Nat) : NoiseInv r (g.advance t) where
  divisor := by rw [Noise.advance_divisor, h.divisor]
  phase := by
    have hreduced := reducedPhase_le (p := g.phase.toNat + t) h.bounds.1
    have hdivisor := h.divisor
    have hbounds := noiseFC_bounds r
    rw [Noise.advance_phase t g h.bounds.1]
    omega
  shift := Noise.lfsrSteps_shift_ne_zero _ h.shift

theorem NoiseInv.set_of_ne {r : RegFile} {g : Noise} (h : NoiseInv r g) {i : RegIdx} (v : Byte) (hi : i.val ≠ 6) :
    NoiseInv (r.set i.val v i.isLt) g where
  divisor := by rw [noiseFC_set_of_ne r i v hi, h.divisor]
  phase := h.phase
  shift := h.shift

/-- R140: every shape starts in `raise` or `lower`. -/
theorem initialBlock_raise_or_lower (shape : Shape) : initialBlock shape = .raise ∨ initialBlock shape = .lower := by
  cases shape <;> decide

/-- R33, R141: a looping shape never leaves `raise` and `lower`. -/
theorem nextBlock_raise_or_lower {shape : Shape} {b : Block} (hloops : shape.loops = true)
    (hb : b = .raise ∨ b = .lower) : nextBlock shape b = .raise ∨ nextBlock shape b = .lower := by
  cases shape with
  | lowerHoldLow | raiseHoldLow | lowerHoldHigh | raiseHoldHigh => cases hloops
  | lowerLoop => exact .inr rfl
  | raiseLoop => exact .inl rfl
  | lowerRaiseLoop | raiseLowerLoop => rcases hb with rfl | rfl <;> decide

theorem blockAfter_raise_or_lower (n : Nat) {shape : Shape} {b : Block} (hloops : shape.loops = true)
    (hb : b = .raise ∨ b = .lower) : blockAfter shape n b = .raise ∨ blockAfter shape n b = .lower := by
  induction n generalizing b with
  | zero => exact hb
  | succ n ih => exact ih (nextBlock_raise_or_lower hloops hb)

theorem EnvInv.restart (r : RegFile) : EnvInv r (Env.setFreqShape (envFC r) r[13]) where
  divisor := toNat_divisor_of_le (envFC_bounds r).2
  phase := Nat.zero_le _
  shape := rfl
  step := Nat.zero_le _
  block := fun _ => initialBlock_raise_or_lower _

theorem EnvInv.advance {r : RegFile} {g : Env} (h : EnvInv r g) (t : Nat) : EnvInv r (g.advance t) where
  divisor := h.divisor
  phase := by
    rw [Env.advance_phase t g h.bounds.1]
    exact reducedPhase_le h.bounds.1
  shape := h.shape
  step := by
    rw [Env.advance_step]
    omega
  block := fun hloops => blockAfter_raise_or_lower _ hloops (h.block hloops)

theorem EnvInv.set_of_ne {r : RegFile} {g : Env} (h : EnvInv r g) {i : RegIdx} (v : Byte)
    (hi : ¬(i.val = 11 ∨ i.val = 12 ∨ i.val = 13)) : EnvInv (r.set i.val v i.isLt) g := by
  simp only [not_or] at hi
  obtain ⟨hfine, hcoarse, hshape⟩ := hi
  exact {
    divisor := by rw [envFC_set_of_ne r i v hfine hcoarse, h.divisor]
    phase := h.phase
    shape := by rw [Vector.getElem_set_ne _ _ hshape, h.shape]
    step := h.step
    block := h.block }

/-! The invariant of the state, operation by operation. -/

/-- R42: at construction every tone is the restart from registers that are all 0. -/
theorem State.construct_tone_get (seed : BitVec 17) (c : Chan) :
    (State.construct seed).tone[c] = Tone.setFrequency (toneFC (State.construct seed).regs c) := by
  have htones : ∀ c : Chan, (#v[⟨32, 0⟩, ⟨32, 0⟩, ⟨32, 0⟩] : Vector Tone 3)[c] =
      Tone.setFrequency (toneFC (Vector.replicate 16 0) c) := by decide
  exact htones c

/-- R44: and so is the envelope. -/
theorem State.construct_env (seed : BitVec 17) : (State.construct seed).env =
    Env.setFreqShape (envFC (State.construct seed).regs) (State.construct seed).regs[13] := by
  have henv : envFC (Vector.replicate 16 0) = 1 := by decide
  exact (congrArg (Env.setFreqShape · 0x00) henv).symm

theorem State.construct_inv {seed : BitVec 17} (hseed : seed ≠ 0) : (State.construct seed).Inv where
  tone := by
    intro c
    rw [State.construct_tone_get]
    exact ToneInv.restart _ c
  noise := ⟨rfl, Nat.zero_le _, hseed⟩
  env := by
    rw [State.construct_env]
    exact EnvInv.restart _

/-- Settles O43: this machine's seed is not 0, being at least 1 (R11). -/
theorem constructionMeetsInvariant : Obligations.ConstructionMeetsInvariant := by
  refine ⟨fun seed hseed => State.construct_inv hseed, State.construct_inv fun hzero => ?_⟩
  have hlo := noiseSeed_bounds.1
  rw [hzero] at hlo
  exact absurd hlo (by decide)

namespace State.Inv

variable {s : State}

theorem setResult (h : s.Inv) (r : HostResult) : (s.setResult r).Inv := ⟨h.tone, h.noise, h.env⟩

theorem consume (h : s.Inv) : s.consume.Inv := ⟨h.tone, h.noise, h.env⟩

theorem select (h : s.Inv) (n : Byte) : (s.select n).Inv := by
  obtain ⟨htone, hnoise, henv⟩ := h
  constructor
  · simpa using htone
  · simpa using hnoise
  · simpa using henv

/-- R176 to R180: a WRITE renews each generator that looks at the register it stores to. -/
theorem writeAt (h : s.Inv) (i : RegIdx) (v : Byte) : (s.writeAt i v).Inv where
  tone := by
    intro c
    rw [State.writeAt_tone_get]
    split
    · exact ToneInv.restart _ c
    · next hi =>
      rw [State.writeAt_regs]
      exact (h.tone c).set_of_ne v hi
  noise := by
    rw [State.writeAt_noise]
    split
    · exact NoiseInv.setFrequency h.noise.phase h.noise.shift _
    · next hi =>
      rw [State.writeAt_regs]
      exact h.noise.set_of_ne v hi
  env := by
    rw [State.writeAt_env]
    split
    · exact EnvInv.restart _
    · next hi =>
      simp only [State.writeAt_regs]
      exact h.env.set_of_ne v hi

theorem advanceGenerators (h : s.Inv) (t : Nat) : (s.advanceGenerators t).Inv where
  tone := by
    intro c
    have hadvance : (s.advanceGenerators t).tone[c] = s.tone[c].advance t := by fin_cases c <;> rfl
    rw [hadvance]
    exact (h.tone c).advance t
  noise := by
    rw [State.advanceGenerators_noise]
    split
    · exact h.noise.advance t
    · exact h.noise
  env := h.env.advance t

end State.Inv

/-! RESTORE is SELECTs and WRITEs (R241), so what these two keep of a pair of states that agree on `sel`, it keeps. -/

section
variable {R : State → State → Prop} (hsel : ∀ {s t}, R s t → s.sel = t.sel)
  (hselect : ∀ {s t}, R s t → ∀ n, R (s.select n) (t.select n))
  (hwrite : ∀ {s t}, R s t → ∀ i v, R (s.writeAt i v) (t.writeAt i v))
include hsel hselect hwrite

theorem State.replay_related {s t : State} (h : R s t) (i : Nat) (bytes : List Byte) :
    R (State.replay i bytes s) (State.replay i bytes t) := by
  induction bytes generalizing i s t with
  | nil => exact h
  | cons b bytes ih =>
    have hselected := hselect h (BitVec.ofNat 8 i)
    refine ih ?_ (i + 1)
    unfold State.write
    rw [← hsel hselected]
    exact hwrite hselected _ b

theorem State.restore_related {s t : State} (h : R s t) (payload : List Byte) :
    R (s.restore payload) (t.restore payload) := by
  cases payload with
  | nil => exact h
  | cons b bytes => exact hselect (State.replay_related hsel hselect hwrite h 0 bytes) b

end

theorem State.Inv.restore {s : State} (h : s.Inv) (payload : List Byte) : (s.restore payload).Inv :=
  (State.restore_related (R := fun s t => s = t ∧ s.Inv) (fun h => congrArg State.sel h.1)
    (fun ⟨heq, hinv⟩ n => ⟨congrArg (State.select n) heq, hinv.select n⟩)
    (fun ⟨heq, hinv⟩ i v => ⟨congrArg (State.writeAt i v) heq, hinv.writeAt i v⟩) ⟨rfl, h⟩ payload).2

/-- Every transaction that completes keeps the invariant. -/
theorem Completes.inv {i : Instr} {s t : State} (hc : Completes i s t) (h : s.Inv) : t.Inv := by
  cases hc with
  | sel n => exact (h.select n).setResult _
  | write k v => exact (h.writeAt k v).setResult _
  | read | snap => exact h.setResult _
  | adv t => exact (h.advanceGenerators t.toNat).setResult _
  | rst payload => exact (h.restore payload).setResult _

/-- A step that answers next is idle or has run a transaction to its end. -/
theorem step_next {s t : State} (h : step s = .next t) :
    (s.pending = [] ∧ t = s) ∨
    ∃ c rest, s.pending = c :: rest ∧ Completes (decode s.sel c.tw c.payload) s.consume t := by
  obtain ⟨hempty, hidle⟩ | ⟨c, rest, hpending, hcall⟩ := step_cases s
  · rw [hidle] at h
    cases h
    exact .inl ⟨hempty, rfl⟩
  · rw [hcall] at h
    split at h
    · cases h
    · exact .inr ⟨c, rest, hpending, exec_next h⟩

/-- Settles O44: an idle step keeps the state, and the transaction of any other step keeps the invariant
(`Completes.inv`). -/
theorem stepKeepsInvariant : Obligations.StepKeepsInvariant := by
  intro s t hinv hstep
  obtain ⟨-, rfl⟩ | ⟨c, rest, -, hcompletes⟩ := step_next hstep
  · exact hinv
  · exact hcompletes.inv hinv.consume

/-! The host's side of a step (R35, R50, R262). -/

/-- No transaction touches the host's sequence or the sticky mark; the step does. -/
theorem Completes.host_unchanged {i : Instr} {s t : State} (h : Completes i s t) :
    t.pending = s.pending ∧ t.pos = s.pos ∧ t.refused = s.refused := by
  cases h with
  | sel | write => simp
  | read | snap | adv => exact ⟨rfl, rfl, rfl⟩
  | rst payload =>
    cases payload with
    | nil => exact ⟨rfl, rfl, rfl⟩
    | cons => simp [State.restore]

/-- Settles O11: the step moves past one call before it runs it, and the transaction leaves that as it is. -/
theorem stepConsumesOneCall : Obligations.StepConsumesOneCall := by
  intro s t c rest hpending hstep
  obtain ⟨hempty, -⟩ | ⟨_, _, -, hcompletes⟩ := step_next hstep
  · rw [hempty] at hpending
    cases hpending
  · simpa [hpending] using hcompletes.host_unchanged

/-! Registers. -/

/-- Settles O21: the WRITE row at i stores, the READ row at i masks, and neither touches another register. -/
theorem writeThenRead : Obligations.WriteThenRead := by
  intro i v s
  refine ⟨_, _, exec_decodeWrite i v s, exec_decodeRead i _, ?_, ?_, fun j hj => ?_⟩
  · simp [State.readAt]
  · simp
  · have hval : i.val ≠ j.val := fun h => hj (Fin.ext h.symm)
    simp [Vector.getElem_set_ne, hval]

/-- Settles O1: each value is the one `State.construct` writes down, whatever the seed. -/
theorem constructionRegistersAndTones : Obligations.ConstructionRegistersAndTones := by
  refine ⟨fun i => ?_, fun c => ?_⟩
  · exact Vector.getElem_replicate i.isLt
  · fin_cases c <;> exact ⟨rfl, rfl⟩

/-! Access to the registers does not see the generators (R37). -/

/-- Two states that the host cannot tell apart by SELECT, WRITE, READ, SNAPSHOT and RESTORE. -/
structure SameRegisters (s t : State) : Prop where
  regs : s.regs = t.regs
  sel : s.sel = t.sel

namespace SameRegisters

variable {s t : State}

theorem select (h : SameRegisters s t) (n : Byte) : SameRegisters (s.select n) (t.select n) where
  regs := by simp [h.regs]
  sel := by simp [State.select_sel, h.sel]

theorem writeAt (h : SameRegisters s t) (i : RegIdx) (v : Byte) : SameRegisters (s.writeAt i v) (t.writeAt i v) where
  regs := by simp [h.regs]
  sel := by simp [h.sel]

theorem restore (h : SameRegisters s t) (payload : List Byte) :
    SameRegisters (s.restore payload) (t.restore payload) :=
  State.restore_related SameRegisters.sel SameRegisters.select SameRegisters.writeAt h payload

theorem readAt_eq (h : SameRegisters s t) (i : RegIdx) : s.readAt i = t.readAt i := by
  unfold State.readAt
  rw [h.regs]

theorem blob_eq (h : SameRegisters s t) : s.blob = t.blob := by
  unfold State.blob
  rw [h.regs, h.sel]

/-- Every transaction but ADVANCE does the same to registers, `sel` and result from both states. -/
theorem completes {i : Instr} {u : State} (h : SameRegisters s t) (hadv : ∀ x, i ≠ .adv x) (hu : Completes i s u) :
    ∃ w, Completes i t w ∧ u.result = w.result ∧ SameRegisters u w := by
  cases hu with
  | sel n => exact ⟨_, .sel n t, rfl, (h.select n).regs, (h.select n).sel⟩
  | write k v => exact ⟨_, .write k v t, rfl, (h.writeAt k v).regs, (h.writeAt k v).sel⟩
  | read k => exact ⟨_, .read k t, congrArg HostResult.byte (h.readAt_eq k), h.regs, h.sel⟩
  | adv ticks => exact absurd rfl (hadv ticks)
  | snap => exact ⟨_, .snap t, congrArg HostResult.blob h.blob_eq, h.regs, h.sel⟩
  | rst payload _ hlength =>
    exact ⟨_, .rst payload t hlength, rfl, (h.restore payload).regs, (h.restore payload).sel⟩

end SameRegisters

/-- Settles O50, row by row (`SameRegisters.completes`). -/
theorem generatorsAreHidden : Obligations.GeneratorsAreHidden := by
  intro i s t u hregs hsel hadv hu
  obtain ⟨w, hw, hresult, hsame⟩ := SameRegisters.completes ⟨hregs, hsel⟩ hadv (exec_next hu)
  exact ⟨w, hw.exec, hresult, hsame.regs, hsame.sel⟩

end Sys2Proof.Machine

/-! What a generator or the mixer takes from the registers lies under `soundMask` (R24). -/

namespace Sys2Proof.Claims.SameSound

open Sys2Proof.Machine

variable {r r' : RegFile}

/-- Bits under the mask are equal. -/
theorem field_eq (h : SameSound r r') (i : RegIdx) (lo n : Nat)
    (hmask : (soundMask i).extractLsb' lo n = BitVec.allOnes n) :
    r[i].extractLsb' lo n = r'[i].extractLsb' lo n := by
  have hmasked := congrArg (BitVec.extractLsb' lo n) (h i)
  simpa only [BitVec.extractLsb'_and, hmask, BitVec.and_allOnes] using hmasked

theorem byte_eq (h : SameSound r r') (i : RegIdx) (hmask : soundMask i = BitVec.allOnes 8) : r[i] = r'[i] := by
  have hmasked := h i
  simpa only [hmask, BitVec.and_allOnes] using hmasked

theorem getLsbD_eq (h : SameSound r r') (i : RegIdx) (n : Nat) (hmask : (soundMask i).getLsbD n = true) :
    r[i].getLsbD n = r'[i].getLsbD n := by
  have hmasked := congrArg (BitVec.getLsbD · n) (h i)
  simpa only [BitVec.getLsbD_and, hmask, Bool.and_true] using hmasked

/-- A WRITE stores the same byte in both. -/
theorem set (h : SameSound r r') (i : RegIdx) (v : Byte) :
    SameSound (r.set i.val v i.isLt) (r'.set i.val v i.isLt) := by
  intro j
  by_cases hij : i.val = j.val
  · simp [hij]
  · simpa [Vector.getElem_set_ne, hij] using h j

/-! The masks of the registers a channel has, for every channel. -/

theorem soundMask_tone : ∀ c : Chan,
    soundMask ⟨2 * c.val, by omega⟩ = BitVec.allOnes 8 ∧
    (soundMask ⟨2 * c.val + 1, by omega⟩).extractLsb' 0 4 = BitVec.allOnes 4 := by decide

theorem soundMask_mixer : ∀ c : Chan,
    (soundMask 7).getLsbD c.val = true ∧ (soundMask 7).getLsbD (3 + c.val) = true := by decide

theorem soundMask_volume : ∀ c : Chan,
    (soundMask ⟨8 + c.val, by omega⟩).getLsbD 4 = true ∧
    (soundMask ⟨8 + c.val, by omega⟩).extractLsb' 0 4 = BitVec.allOnes 4 := by decide

/-! So every operand form is the same (R75 to R79). -/

theorem toneFC_eq (h : SameSound r r') (c : Chan) : toneFC r c = toneFC r' c := by
  obtain ⟨hfine, hcoarse⟩ := soundMask_tone c
  have hlow : r[2 * c.val] = r'[2 * c.val] := h.byte_eq _ hfine
  have hhigh : r[2 * c.val + 1].extractLsb' 0 4 = r'[2 * c.val + 1].extractLsb' 0 4 := h.field_eq _ 0 4 hcoarse
  unfold toneFC toneF
  rw [hlow, hhigh]

theorem noiseFC_eq (h : SameSound r r') : noiseFC r = noiseFC r' := by
  have hfield : r[6].extractLsb' 0 5 = r'[6].extractLsb' 0 5 := h.field_eq 6 0 5 (by decide)
  unfold noiseFC noiseF
  rw [hfield]

theorem envFC_eq (h : SameSound r r') : envFC r = envFC r' := by
  have hlow : r[11] = r'[11] := h.byte_eq 11 (by decide)
  have hhigh : r[12] = r'[12] := h.byte_eq 12 (by decide)
  unfold envFC envF
  rw [hlow, hhigh]

theorem shapeCode_eq (h : SameSound r r') : shapeCode r[13] = shapeCode r'[13] := h.field_eq 13 0 4 (by decide)

theorem toneEn_eq (h : SameSound r r') (c : Chan) : toneEn r c = toneEn r' c :=
  congrArg not (h.getLsbD_eq 7 c.val (soundMask_mixer c).1)

theorem noiseEn_eq (h : SameSound r r') (c : Chan) : noiseEn r c = noiseEn r' c :=
  congrArg not (h.getLsbD_eq 7 (3 + c.val) (soundMask_mixer c).2)

theorem volEnv_eq (h : SameSound r r') (c : Chan) : volEnv r c = volEnv r' c :=
  h.getLsbD_eq ⟨8 + c.val, by omega⟩ 4 (soundMask_volume c).1

theorem volFixed_eq (h : SameSound r r') (c : Chan) : volFixed r c = volFixed r' c :=
  h.field_eq ⟨8 + c.val, by omega⟩ 0 4 (soundMask_volume c).2

theorem noiseWanted_eq (h : SameSound r r') : noiseWanted r = noiseWanted r' := by
  unfold noiseWanted
  simp only [h.noiseEn_eq]

theorem setFreqShape_eq (h : SameSound r r') :
    Env.setFreqShape (envFC r) r[13] = Env.setFreqShape (envFC r') r'[13] := by
  unfold Env.setFreqShape
  rw [h.envFC_eq, h.shapeCode_eq]

theorem channelTerm_eq (h : SameSound r r') (c : Chan) : channelTerm r c = channelTerm r' c := by
  funext toneBit noiseBit level
  unfold channelTerm volumeIndex
  rw [h.toneEn_eq, h.noiseEn_eq, h.volEnv_eq, h.volFixed_eq]

end Sys2Proof.Claims.SameSound

namespace Sys2Proof.Machine

open Sys2Proof.Claims

/-- Two states that sound alike now and after any transaction. -/
structure SoundsAlike (s t : State) : Prop where
  regs : SameSound s.regs t.regs
  sel : s.sel = t.sel
  tone : s.tone = t.tone
  noise : s.noise = t.noise
  env : s.env = t.env

namespace SoundsAlike

variable {s t : State}

/-- The result is no part of the relation, so it may differ. -/
theorem setResult (h : SoundsAlike s t) (x y : HostResult) : SoundsAlike (s.setResult x) (t.setResult y) :=
  ⟨h.regs, h.sel, h.tone, h.noise, h.env⟩

theorem select (h : SoundsAlike s t) (n : Byte) : SoundsAlike (s.select n) (t.select n) := by
  obtain ⟨hregs, hsel, htone, hnoise, henv⟩ := h
  constructor <;> simp [State.select_sel, *]

theorem writeAt (h : SoundsAlike s t) (i : RegIdx) (v : Byte) : SoundsAlike (s.writeAt i v) (t.writeAt i v) := by
  obtain ⟨hregs, hsel, htone, hnoise, henv⟩ := h
  have hstored : SameSound (s.writeAt i v).regs (t.writeAt i v).regs := by
    simpa only [State.writeAt_regs] using hregs.set i v
  exact {
    regs := hstored
    sel := by simp [hsel]
    tone := by
      refine Vector.ext fun c hc => ?_
      have hs := s.writeAt_tone_get i v ⟨c, hc⟩
      have ht := t.writeAt_tone_get i v ⟨c, hc⟩
      rw [hstored.toneFC_eq, htone, ← ht] at hs
      exact hs
    noise := by rw [State.writeAt_noise, State.writeAt_noise, hstored.noiseFC_eq, hnoise]
    env := by rw [State.writeAt_env, State.writeAt_env, hstored.setFreqShape_eq, henv] }

theorem restore (h : SoundsAlike s t) (payload : List Byte) : SoundsAlike (s.restore payload) (t.restore payload) :=
  State.restore_related SoundsAlike.sel SoundsAlike.select SoundsAlike.writeAt h payload

theorem advanceGenerators (h : SoundsAlike s t) (ticks : Nat) :
    SoundsAlike (s.advanceGenerators ticks) (t.advanceGenerators ticks) where
  regs := h.regs
  sel := h.sel
  tone := by simp [h.tone]
  noise := by simp [h.noise, h.regs.noiseWanted_eq]
  env := by simp [h.env]

theorem mix_eq (h : SoundsAlike s t) : s.mix = t.mix := by
  unfold State.mix
  simp only [h.regs.channelTerm_eq, h.tone, h.noise, h.env]

/-- Every transaction that completes from one completes from the other, and an ADVANCE returns the same sample. -/
theorem completes {i : Instr} {u : State} (h : SoundsAlike s t) (hu : Completes i s u) :
    ∃ w, Completes i t w ∧ SoundsAlike u w ∧ ∀ x, i = .adv x → u.result = w.result := by
  cases hu with
  | sel n => exact ⟨_, .sel n t, (h.select n).setResult _ _, fun _ _ => rfl⟩
  | write k v => exact ⟨_, .write k v t, (h.writeAt k v).setResult _ _, fun _ _ => rfl⟩
  | read k => exact ⟨_, .read k t, h.setResult _ _, fun x hx => by fin_cases k <;> cases hx⟩
  | adv ticks _ hticks =>
    have hadv := h.advanceGenerators ticks.toNat
    exact ⟨_, .adv ticks t hticks, hadv.setResult _ _, fun _ _ => by simp [hadv.mix_eq]⟩
  | snap => exact ⟨_, .snap t, h.setResult _ _, fun x hx => by cases hx⟩
  | rst payload _ hlength => exact ⟨_, .rst payload t hlength, (h.restore payload).setResult _ _, fun _ _ => rfl⟩

end SoundsAlike

/-- Settles O37, row by row (`SoundsAlike.completes`). -/
theorem unusedBitsAreSilent : Obligations.UnusedBitsAreSilent := by
  intro i s u r hsound hu
  have halike : SoundsAlike s { s with regs := r } := ⟨hsound, rfl, rfl, rfl, rfl⟩
  obtain ⟨w, hw, ⟨hregs, -, htone, hnoise, henv⟩, hsample⟩ := halike.completes (exec_next hu)
  exact ⟨w, hw.exec, htone, hnoise, henv, hregs, hsample⟩

end Sys2Proof.Machine
end

section
/-! The family `20_memory`: the host's transactions one at a time (R50, R52), and which of them are idempotent (R61). -/

namespace Sys2Proof.Machine

/-! A step with a call to take. -/

/-- R35: what the step hands to the transaction, by the host's sequence it found. -/
theorem State.consume_of_pending {s : State} {c : HostCall} {rest : List HostCall} (h : s.pending = c :: rest) :
    s.consume = { s with pending := rest, pos := s.pos + 1 } := by
  unfold State.consume
  rw [h, List.tail_cons]

/-- R50, R266: the step takes the oldest call, refuses it if it overlaps another, and else runs its transaction. -/
theorem step_of_pending {s : State} {c : HostCall} {rest : List HostCall} (h : s.pending = c :: rest) :
    step s = if c.overlapping then .refused .hostDuty else exec (decode s.sel c.tw c.payload) s.consume := by
  obtain ⟨hempty, -⟩ | ⟨c', rest', hpending, hstep⟩ := step_cases s
  · rw [hempty] at h
    cases h
  · rw [hpending] at h
    cases h
    exact hstep

/-- Settles O7: the call that `step_of_pending` takes does not overlap. -/
theorem stepRunsDecodedTransaction : Obligations.StepRunsDecodedTransaction := by
  rintro s c rest _ hpending hoverlap rfl
  rw [step_of_pending hpending, hoverlap, State.consume_of_pending hpending]
  exact if_neg Bool.false_ne_true

/-- Settles O9: the call that `step_of_pending` takes overlaps, and its word is not looked at. -/
theorem overlappingCallIsRefused : Obligations.OverlappingCallIsRefused := by
  intro s c rest hpending hoverlap
  rw [step_of_pending hpending]
  exact if_pos hoverlap

/-! SELECT, READ and SNAPSHOT twice in a row. None of them looks at the result, which the first one has left. -/

@[simp] theorem State.setResult_setResult (r r' : HostResult) (s : State) :
    (s.setResult r).setResult r' = s.setResult r' := rfl

@[simp] theorem State.setResult_readAt (r : HostResult) (i : RegIdx) (s : State) :
    (s.setResult r).readAt i = s.readAt i := rfl

@[simp] theorem State.setResult_blob (r : HostResult) (s : State) : (s.setResult r).blob = s.blob := rfl

/-- R170: an index in range is latched. -/
theorem State.select_of_lt {n : Byte} (h : n.toNat < 16) (s : State) :
    s.select n = { s with sel := ⟨n.toNat, h⟩ } := dif_pos h

/-- R170: an index above 15 is a no-op. -/
theorem State.select_of_not_lt {n : Byte} (h : ¬n.toNat < 16) (s : State) : s.select n = s := dif_neg h

@[simp] theorem State.setResult_select (r : HostResult) (n : Byte) (s : State) :
    (s.setResult r).select n = (s.select n).setResult r := by
  by_cases h : n.toNat < 16
  · simp only [State.select_of_lt h, State.setResult]
  · simp only [State.select_of_not_lt h]

@[simp] theorem State.select_select (n : Byte) (s : State) : (s.select n).select n = s.select n := by
  by_cases h : n.toNat < 16
  · simp only [State.select_of_lt h]
  · simp only [State.select_of_not_lt h]

/-- R61: a transaction that completes into a state which it keeps is idempotent there. -/
theorem exec_idempotent {i : Instr} {s t u : State} (hfirst : Completes i s t) (hsecond : Completes i t u)
    (hkeeps : u = t) : ∃ t', exec i s = .next t' ∧ exec i t' = .next t' :=
  ⟨t, hfirst.exec, hkeeps ▸ hsecond.exec⟩

/-- Settles O22: the second SELECT latches the same index, and the second READ or SNAPSHOT returns what the same
registers and `sel` give. -/
theorem selectReadSnapshotIdempotent : Obligations.SelectReadSnapshotIdempotent := by
  rintro n k _ (rfl | rfl | rfl) s
  · exact exec_idempotent (.sel n s) (.sel n _) (by simp)
  · exact exec_idempotent (.read k s) (.read k _) (by simp)
  · exact exec_idempotent (.snap s) (.snap _) (by simp)

end Sys2Proof.Machine
end

section
/-! The family `30_encoding`: what a word decodes to and back (R70 to R74, R80), which words are refused (R263), and
the pseudo-transactions (R83). -/

namespace Sys2Proof

/-! A row of the opcode table by its index: WRITE and READ have one constructor per value of `sel` (R80). -/

/-- The rows of R71, with one case for the 16 WRITEs and one for the 16 READs. -/
theorem Instr.byRow {P : Instr → Prop} (sel : ∀ n, P (.sel n)) (write : ∀ k v, P (decodeWrite k v))
    (read : ∀ k, P (decodeRead k)) (adv : ∀ t, P (.adv t)) (snap : P .snap) (rst : ∀ payload, P (.rst payload))
    (reservedKind : ∀ kind opnd, P (.reservedKind kind opnd)) (reservedRsv : ∀ tw, P (.reservedRsv tw)) :
    ∀ i, P i
  | .sel n => sel n
  | .wrSel0 v => write 0 v
  | .wrSel1 v => write 1 v
  | .wrSel2 v => write 2 v
  | .wrSel3 v => write 3 v
  | .wrSel4 v => write 4 v
  | .wrSel5 v => write 5 v
  | .wrSel6 v => write 6 v
  | .wrSel7 v => write 7 v
  | .wrSel8 v => write 8 v
  | .wrSel9 v => write 9 v
  | .wrSel10 v => write 10 v
  | .wrSel11 v => write 11 v
  | .wrSel12 v => write 12 v
  | .wrSel13 v => write 13 v
  | .wrSel14 v => write 14 v
  | .wrSel15 v => write 15 v
  | .rdSel0 => read 0
  | .rdSel1 => read 1
  | .rdSel2 => read 2
  | .rdSel3 => read 3
  | .rdSel4 => read 4
  | .rdSel5 => read 5
  | .rdSel6 => read 6
  | .rdSel7 => read 7
  | .rdSel8 => read 8
  | .rdSel9 => read 9
  | .rdSel10 => read 10
  | .rdSel11 => read 11
  | .rdSel12 => read 12
  | .rdSel13 => read 13
  | .rdSel14 => read 14
  | .rdSel15 => read 15
  | .adv t => adv t
  | .snap => snap
  | .rst payload => rst payload
  | .reservedKind kind opnd => reservedKind kind opnd
  | .reservedRsv tw => reservedRsv tw

section
variable (k : RegIdx) (v : Byte)

@[simp] theorem encode_decodeWrite : encode (decodeWrite k v) = (opndWord 0x02#8 (zext32 v), []) := by
  fin_cases k <;> rfl

@[simp] theorem encode_decodeRead : encode (decodeRead k) = (opndWord 0x03#8 0#32, []) := by
  fin_cases k <;> rfl

@[simp] theorem selKey_decodeWrite : (decodeWrite k v).selKey = some k := by
  fin_cases k <;> rfl

@[simp] theorem selKey_decodeRead : (decodeRead k).selKey = some k := by
  fin_cases k <;> rfl

@[simp] theorem wf_decodeWrite : (decodeWrite k v).wf = true := by
  fin_cases k <;> rfl

@[simp] theorem wf_decodeRead : (decodeRead k).wf = true := by
  fin_cases k <;> rfl

theorem decodeWrite_ne_rst (payload : List Byte) : decodeWrite k v ≠ .rst payload := by
  fin_cases k <;> exact Instr.noConfusion

theorem decodeRead_ne_rst (payload : List Byte) : decodeRead k ≠ .rst payload := by
  fin_cases k <;> exact Instr.noConfusion

end

/-! The fields of a word as numbers (R70), and the reserved ones (R72, R73). -/

theorem kindOf_toNat (tw : TxnWord) : (kindOf tw).toNat = tw.toNat / 2 ^ 56 := by
  have := tw.isLt
  rw [kindOf, extract_toNat]
  omega

theorem rsvOf_toNat (tw : TxnWord) : (rsvOf tw).toNat = tw.toNat / 2 ^ 32 % 2 ^ 24 := extract_toNat tw 32 24

theorem opndOf_toNat (tw : TxnWord) : (opndOf tw).toNat = tw.toNat % 2 ^ 32 := by
  rw [opndOf, extract_toNat, pow_zero, Nat.div_one]

theorem toNat_eq_zero_iff {w : Nat} (x : BitVec w) : x.toNat = 0 ↔ x = 0#w := by
  rw [← BitVec.toNat_inj, BitVec.toNat_ofNat, Nat.zero_mod]

theorem kindReserved_iff (kind : Byte) : kindReserved kind = true ↔ kind.toNat = 0 ∨ 7 ≤ kind.toNat := by
  simp [kindReserved]

/-- `OPND[31:8]` (R72). -/
theorem highOperand_eq_zero_iff (tw : TxnWord) : (opndOf tw).toNat / 256 = 0 ↔ tw.extractLsb' 8 24 = 0#24 := by
  rw [← toNat_eq_zero_iff, extract_toNat, opndOf_toNat]
  omega

/-- R71: a word with `OPND[31:8]` 0 carries a byte. -/
theorem exists_byteOperand {opnd : U32} (h : opnd.toNat / 256 = 0) : ∃ b, opnd = zext32 b := by
  refine ⟨opnd.setWidth 8, BitVec.eq_of_toNat_eq ?_⟩
  rw [zext32_toNat, BitVec.toNat_setWidth]
  omega

/-- R72: the bits that a word's `KIND` leaves reserved, by number. -/
theorem reservedBitSet_iff (tw : TxnWord) : reservedBitSet tw = true ↔ (rsvOf tw).toNat ≠ 0 ∨
    ((kindOf tw).toNat = 1 ∨ (kindOf tw).toNat = 2) ∧ (opndOf tw).toNat / 256 ≠ 0 ∨
    ((kindOf tw).toNat = 3 ∨ (kindOf tw).toNat = 5 ∨ (kindOf tw).toNat = 6) ∧ (opndOf tw).toNat ≠ 0 := by
  simp only [ne_eq, highOperand_eq_zero_iff, toNat_eq_zero_iff]
  unfold reservedBitSet rsvOf kindOf opndOf
  split <;> simp_all

/-! What a word decodes to, said once for all words (R72): `Decodes sel payload tw i` builds the word from its parts. -/

/-- The rows of R71 with their words; the reserved rows for the other words. -/
inductive Decodes (sel : RegIdx) (payload : List Byte) : TxnWord → Instr → Prop
  | sel (n : Byte) : Decodes sel payload (opndWord 0x01#8 (zext32 n)) (.sel n)
  | write (v : Byte) : Decodes sel payload (opndWord 0x02#8 (zext32 v)) (decodeWrite sel v)
  | read : Decodes sel payload (opndWord 0x03#8 0#32) (decodeRead sel)
  | adv (t : U32) : Decodes sel payload (opndWord 0x04#8 t) (.adv t)
  | snap : Decodes sel payload (opndWord 0x05#8 0#32) .snap
  | rst : Decodes sel payload (opndWord 0x06#8 0#32) (.rst payload)
  | reservedKind (kind : Byte) (opnd : U32) :
    kindReserved kind = true → Decodes sel payload (opndWord kind opnd) (.reservedKind kind opnd)
  | reservedRsv (tw : TxnWord) : reservedBitSet tw = true → Decodes sel payload tw (.reservedRsv tw)

theorem decode_of_kindReserved (sel : RegIdx) {kind : Byte} (h : kindReserved kind = true) (opnd : U32)
    (payload : List Byte) : decode sel (opndWord kind opnd) payload = .reservedKind kind opnd := by
  rw [kindReserved_iff] at h
  unfold decode
  simp only [rsvOf_opndWord, kindOf_opndWord, opndOf_opndWord]
  split
  · contradiction
  · split
    case h_7 => rfl
    all_goals omega

theorem decode_of_reservedBitSet (sel : RegIdx) {tw : TxnWord} (h : reservedBitSet tw = true) (payload : List Byte) :
    decode sel tw payload = .reservedRsv tw := by
  simp only [reservedBitSet_iff, highOperand_eq_zero_iff, toNat_eq_zero_iff, ne_eq] at h
  unfold decode
  split
  · rfl
  · split <;> simp_all

/-- The words of the table decode as it says. -/
theorem Decodes.decode_eq {sel : RegIdx} {payload : List Byte} {tw : TxnWord} {i : Instr}
    (h : Decodes sel payload tw i) : decode sel tw payload = i := by
  cases h with
  | sel n => exact decode_selWord sel n payload
  | write v => exact decode_wrWord sel v payload
  | read => exact decode_rdWord sel payload
  | adv | snap | rst => simp [decode]
  | reservedKind kind opnd h => exact decode_of_kindReserved sel h opnd payload
  | reservedRsv tw h => exact decode_of_reservedBitSet sel h payload

/-- Every word is one of the table's or reserved. -/
theorem exists_decodes (sel : RegIdx) (payload : List Byte) (tw : TxnWord) : ∃ i, Decodes sel payload tw i := by
  by_cases hreserved : reservedBitSet tw = true
  · exact ⟨_, .reservedRsv tw hreserved⟩
  · rw [reservedBitSet_iff] at hreserved
    push Not at hreserved
    obtain ⟨hrsv, hbyte, hnone⟩ := hreserved
    rw [← opndWord_of_parts tw ((toNat_eq_zero_iff _).mp hrsv)]
    generalize kindOf tw = kind, opndOf tw = opnd at *
    have hzero (h : kind.toNat = 3 ∨ kind.toNat = 5 ∨ kind.toNat = 6) : opnd = 0#32 :=
      BitVec.eq_of_toNat_eq (hnone h)
    match hkind : kind.toNat with
    | 0 => exact ⟨_, .reservedKind kind opnd ((kindReserved_iff kind).mpr (.inl hkind))⟩
    | 1 =>
      obtain rfl : kind = 0x01#8 := BitVec.eq_of_toNat_eq hkind
      obtain ⟨n, rfl⟩ := exists_byteOperand (hbyte (.inl rfl))
      exact ⟨_, .sel n⟩
    | 2 =>
      obtain rfl : kind = 0x02#8 := BitVec.eq_of_toNat_eq hkind
      obtain ⟨v, rfl⟩ := exists_byteOperand (hbyte (.inr rfl))
      exact ⟨_, .write v⟩
    | 3 =>
      obtain rfl : kind = 0x03#8 := BitVec.eq_of_toNat_eq hkind
      rw [hzero (.inl rfl)]
      exact ⟨_, .read⟩
    | 4 =>
      obtain rfl : kind = 0x04#8 := BitVec.eq_of_toNat_eq hkind
      exact ⟨_, .adv opnd⟩
    | 5 =>
      obtain rfl : kind = 0x05#8 := BitVec.eq_of_toNat_eq hkind
      rw [hzero (.inr (.inl rfl))]
      exact ⟨_, .snap⟩
    | 6 =>
      obtain rfl : kind = 0x06#8 := BitVec.eq_of_toNat_eq hkind
      rw [hzero (.inr (.inr rfl))]
      exact ⟨_, .rst⟩
    | n + 7 => exact ⟨_, .reservedKind kind opnd ((kindReserved_iff kind).mpr (.inr (by omega)))⟩

/-- R72: decode answers what the table says of the word, and nothing else. -/
theorem decodes_decode (sel : RegIdx) (payload : List Byte) (tw : TxnWord) :
    Decodes sel payload tw (decode sel tw payload) := by
  obtain ⟨i, hi⟩ := exists_decodes sel payload tw
  rwa [hi.decode_eq]

/-- The word of a well-formed transaction is its word in the table. -/
theorem decodes_encode {i : Instr} {sel : RegIdx} (hwf : i.wf = true) (hsel : ∀ k, i.selKey = some k → sel = k) :
    Decodes sel (encode i).2 (encode i).1 i := by
  induction i using Instr.byRow with
  | sel n => exact .sel n
  | write k v =>
    rw [encode_decodeWrite, ← hsel k (selKey_decodeWrite k v)]
    exact .write v
  | read k =>
    rw [encode_decodeRead, ← hsel k (selKey_decodeRead k)]
    exact .read
  | adv t => exact .adv t
  | snap => exact .snap
  | rst payload => exact .rst
  | reservedKind kind opnd => exact .reservedKind kind opnd hwf
  | reservedRsv tw => exact .reservedRsv tw hwf

/-- Settles O5: the encoding is the table's word (`decodes_encode`), and the table's words decode as it says. -/
theorem decodeEncodeRoundTrip : Obligations.DecodeEncodeRoundTrip :=
  fun _ _ hwf hsel => (decodes_encode hwf hsel).decode_eq

section
variable {sel : RegIdx} {payload : List Byte} {tw : TxnWord} {i : Instr}

theorem Decodes.wf (h : Decodes sel payload tw i) : i.wf = true := by
  cases h with
  | write v => exact wf_decodeWrite sel v
  | read => exact wf_decodeRead sel
  | reservedKind _ _ h | reservedRsv _ h => exact h
  | sel | adv | snap | rst => rfl

theorem Decodes.encode_fst (h : Decodes sel payload tw i) : (encode i).1 = tw := by
  cases h with
  | write v => rw [encode_decodeWrite]
  | read => rw [encode_decodeRead]
  | sel | adv | snap | rst | reservedKind | reservedRsv => rfl

theorem Decodes.selKey_eq (h : Decodes sel payload tw i) {k : RegIdx} (hk : i.selKey = some k) : k = sel := by
  cases h with
  | write v =>
    rw [selKey_decodeWrite] at hk
    exact (Option.some.inj hk).symm
  | read =>
    rw [selKey_decodeRead] at hk
    exact (Option.some.inj hk).symm
  | sel | adv | snap | rst | reservedKind | reservedRsv => cases hk

/-- RESTORE gets the payload beside its word (R72). -/
theorem Decodes.payload_eq {p : List Byte} (h : Decodes sel payload tw i) (hp : i = .rst p) : p = payload := by
  cases h with
  | rst => exact (Instr.rst.inj hp).symm
  | write v => exact absurd hp (decodeWrite_ne_rst sel v p)
  | read => exact absurd hp (decodeRead_ne_rst sel p)
  | sel | adv | snap | reservedKind | reservedRsv => cases hp

end

/-- Settles O6: whatever the word, decode's answer is the table's (`decodes_decode`), row by row. -/
theorem encodeDecodeRoundTrip : Obligations.EncodeDecodeRoundTrip := by
  intro sel tw payload
  have h := decodes_decode sel payload tw
  exact ⟨h.wf, h.encode_fst, fun _ hk => h.selKey_eq hk, fun _ hp => h.payload_eq hp⟩

/-- Settles O4: each word is the table's for its transaction. -/
theorem wordsDecode : Obligations.WordsDecode :=
  ⟨(Decodes.sel 13).decode_eq, (Decodes.write 0xA5).decode_eq, Decodes.read.decode_eq,
    (Decodes.adv 0xFFDFFFFF).decode_eq, Decodes.snap.decode_eq, Decodes.rst.decode_eq, (Decodes.reservedKind 0x07 0 rfl).decode_eq,
    (Decodes.reservedRsv 0x0701000000000000 rfl).decode_eq⟩

end Sys2Proof

namespace Sys2Proof.Machine

open Sys2Proof.Claims

/-! Which words are refused (R72, R210, R241, R263). -/

/-- Settles O12: each reserved row has its refusal for its meaning. -/
theorem reservedRowsAreRefused : Obligations.ReservedRowsAreRefused := fun _ _ _ _ => ⟨rfl, rfl⟩

theorem exec_adv_of_lt {t : U32} (h : Config.tWfMax < t.toNat) (s : State) : exec (.adv t) s = .refused .tickRange :=
  if_pos h

theorem exec_rst_of_length_ne {payload : List Byte} (h : payload.length ≠ 17) (s : State) :
    exec (.rst payload) s = .refused .malformedBlob := if_neg h

/-- R260: a word that no check of R263 refuses runs to its end. -/
theorem exec_completes_of_decodes {sel : RegIdx} {payload : List Byte} {tw : TxnWord} {i : Instr}
    (h : Decodes sel payload tw i) (hbits : ¬reservedBitSet tw = true) (hkind : ¬kindReserved (kindOf tw) = true)
    (hticks : (kindOf tw).toNat = 4 → (opndOf tw).toNat ≤ Config.tWfMax)
    (hlength : (kindOf tw).toNat = 6 → payload.length = 17) (s : State) : ∃ t, exec i s = .next t := by
  cases h with
  | sel n => exact ⟨_, (Completes.sel n s).exec⟩
  | write v => exact ⟨_, (Completes.write sel v s).exec⟩
  | read => exact ⟨_, (Completes.read sel s).exec⟩
  | adv t => exact ⟨_, (Completes.adv t s (by simpa using hticks)).exec⟩
  | snap => exact ⟨_, (Completes.snap s).exec⟩
  | rst => exact ⟨_, (Completes.rst payload s (by simpa using hlength)).exec⟩
  | reservedKind _ _ h => exact absurd h (by simpa using hkind)
  | reservedRsv _ h => exact absurd h hbits

/-- Settles O10: the numbers are the word's fields. A reserved bit or kind decodes to the row that refuses it, ADVANCE
and RESTORE refuse by their operand, and every other word completes (`exec_completes_of_decodes`). -/
theorem refusalOrderAndCompletion : Obligations.RefusalOrderAndCompletion := by
  rintro s ⟨tw, payload, _⟩ rest hpending rfl
  have hstep : step s = exec (decode s.sel tw payload) s.consume := step_of_pending hpending
  have hword (hrsv : (rsvOf tw).toNat = 0) : opndWord (kindOf tw) (opndOf tw) = tw :=
    opndWord_of_parts tw ((toNat_eq_zero_iff _).mp hrsv)
  dsimp only
  rw [← kindOf_toNat, ← rsvOf_toNat, ← opndOf_toNat, hstep]
  refine ⟨fun hrsv => ?_, fun hrsv hkind => ?_, fun _ hopnd => ?_, fun hrsv hkind hticks => ?_,
    fun hrsv hkind hopnd hlength => ?_, fun hrsv hkind hopnd hticks hlength => ?_⟩
  · rw [decode_of_reservedBitSet _ ((reservedBitSet_iff tw).mpr (.inl hrsv))]
    rfl
  · rw [← hword hrsv, decode_of_kindReserved _ ((kindReserved_iff _).mpr hkind)]
    rfl
  · rw [decode_of_reservedBitSet _ ((reservedBitSet_iff tw).mpr (.inr hopnd))]
    rfl
  · have hadv : kindOf tw = 0x04#8 := BitVec.eq_of_toNat_eq hkind
    rw [← hword hrsv, hadv, (Decodes.adv _).decode_eq, exec_adv_of_lt hticks]
  · have hrst : kindOf tw = 0x06#8 := BitVec.eq_of_toNat_eq hkind
    rw [← hword hrsv, hrst, (toNat_eq_zero_iff _).mp hopnd, Decodes.rst.decode_eq, exec_rst_of_length_ne hlength]
  · have hbits : ¬reservedBitSet tw = true := by
      rw [reservedBitSet_iff]
      exact not_or.mpr ⟨not_not.mpr hrsv, hopnd⟩
    have hnamed : ¬kindReserved (kindOf tw) = true := by
      rw [kindReserved_iff]
      omega
    exact exec_completes_of_decodes (decodes_decode s.sel payload tw) hbits hnamed hticks hlength s.consume

/-! One generator set from the registers, in the numbers of the claims (R100, R120, R142). -/

theorem Tone.setFrequency_toneFC (r : RegFile) (c : Chan) :
    Tone.setFrequency (toneFC r c) = ⟨toneDivisor r[2 * c.val] r[2 * c.val + 1], 0⟩ := by
  unfold Tone.setFrequency toneFC toneDivisor
  rw [toneF_toNat]
  rfl

theorem Noise.setFrequency_noiseFC (r : RegFile) (g : Noise) :
    g.setFrequency (noiseFC r) = { g with divisor := noiseDivisor r[6] } := by
  unfold Noise.setFrequency noiseFC noiseDivisor
  rw [noiseF_toNat, max_assoc, max_self]
  rfl

theorem Env.setFreqShape_envFC (r : RegFile) :
    Env.setFreqShape (envFC r) r[13] = envRestarted r[11] r[12] r[13] := by
  have hshape : shapeCode r[13] = BitVec.ofNat 4 r[13].toNat := by
    rw [shapeCode, BitVec.ofNat_toNat, BitVec.setWidth_eq_extractLsb' (by decide)]
  unfold Env.setFreqShape envFC envRestarted envDivisor
  rw [envF_toNat, hshape]
  rfl

/-! A WRITE by its index (R177 to R180). -/

/-- R177: a WRITE to a tone pair. -/
theorem State.writeAt_tone {i : RegIdx} {c : Chan} (h : i.val = 2 * c.val ∨ i.val = 2 * c.val + 1) (v : Byte)
    (s : State) : (s.writeAt i v).tone = s.tone.set c.val (Tone.setFrequency (toneFC (s.writeAt i v).regs c)) := by
  have heffect := (writeEffect_eq_restartTone_iff i c).mpr h
  rw [(s.writeAt_generators i v).1, heffect, State.writeAt_regs]

/-- R177: a WRITE above the tone pairs keeps the tones. -/
theorem State.writeAt_tone_of_le {i : RegIdx} (h : 6 ≤ i.val) (v : Byte) (s : State) :
    (s.writeAt i v).tone = s.tone := by
  refine Vector.ext fun c hc => ?_
  have hget := s.writeAt_tone_get i v ⟨c, hc⟩
  rwa [if_neg (by dsimp only; omega)] at hget

theorem State.writeAt_noise_of_ne {i : RegIdx} (h : i.val ≠ 6) (v : Byte) (s : State) :
    (s.writeAt i v).noise = s.noise := by
  rw [State.writeAt_noise, if_neg h]

theorem State.writeAt_env_of_ne {i : RegIdx} (h : ¬(i.val = 11 ∨ i.val = 12 ∨ i.val = 13)) (v : Byte) (s : State) :
    (s.writeAt i v).env = s.env := by
  rw [State.writeAt_env, if_neg h]

/-! The pseudo-transactions of R83 select and write consecutive registers, as RESTORE's replay does (R241). -/

/-- The calls that SELECT and WRITE the registers from index i on. -/
def replayCalls : Nat → List Byte → List HostCall
  | _, [] => []
  | i, b :: bytes => selCall (BitVec.ofNat 8 i) :: wrCall b :: replayCalls (i + 1) bytes

/-- The first index that a pseudo-transaction selects. -/
def firstIndex : Pseudo → Nat
  | .wrr i _ => i.toNat
  | .tone c _ => 2 * c.val
  | .noisef _ => 6
  | .mix _ => 7
  | .vol c _ => 8 + c.val
  | .envf _ _ => 11

/-- The bytes that a pseudo-transaction writes, from that index on. -/
def bytesWritten : Pseudo → List Byte
  | .wrr _ v => [v]
  | .tone _ f => [f.extractLsb' 0 8, (f.extractLsb' 8 4).setWidth 8]
  | .noisef f => [f.setWidth 8]
  | .mix m => [m]
  | .vol _ v => [v]
  | .envf f s => [f.extractLsb' 0 8, f.extractLsb' 8 8, s]

theorem expand_eq_replayCalls (p : Pseudo) : p.expand = replayCalls (firstIndex p) (bytesWritten p) := by
  cases p with
  | wrr i v => simp [Pseudo.expand, replayCalls, firstIndex, bytesWritten]
  | tone | noisef | mix | vol | envf => rfl

/-- A turn whose step completes is that step. -/
theorem State.turn_of_next {s t : State} (h : step s = .next t) : s.turn = t := by
  unfold State.turn
  rw [h]

theorem State.turn_selCall {s : State} {n : Byte} {rest : List HostCall} (h : s.pending = selCall n :: rest) :
    s.turn = (s.consume.select n).setResult .nothing := by
  apply State.turn_of_next
  rw [step_of_pending h]
  exact (congrArg (exec · s.consume) (decode_selWord s.sel n [])).trans (Completes.sel n s.consume).exec

theorem State.turn_wrCall {s : State} {v : Byte} {rest : List HostCall} (h : s.pending = wrCall v :: rest) :
    s.turn = (s.consume.write v).setResult .nothing := by
  apply State.turn_of_next
  rw [step_of_pending h]
  exact (congrArg (exec · s.consume) (decode_wrWord s.sel v [])).trans (exec_decodeWrite s.sel v s.consume)

theorem SameCore.trans {s t u : State} (hst : SameCore s t) (htu : SameCore t u) : SameCore s u :=
  ⟨hst.regs.trans htu.regs, hst.sel.trans htu.sel, hst.tone.trans htu.tone, hst.noise.trans htu.noise,
    hst.env.trans htu.env⟩

theorem State.consume_sameCore (s : State) : SameCore s.consume s := ⟨rfl, rfl, rfl, rfl, rfl⟩

theorem State.setResult_sameCore (r : HostResult) (s : State) : SameCore (s.setResult r) s :=
  ⟨rfl, rfl, rfl, rfl, rfl⟩

/-- A SEL call and a WR call do what SELECT and WRITE do to the core, and nothing is refused. -/
theorem State.turn_turn_selWr {s : State} {n v : Byte} {rest : List HostCall}
    (h : s.pending = selCall n :: wrCall v :: rest) :
    SameCore s.turn.turn ((s.select n).write v) ∧ s.turn.turn.pending = rest ∧ s.turn.turn.refused = s.refused := by
  have hwr : s.turn.pending = wrCall v :: rest := by simp [State.turn_selCall h, h]
  have hcore : SameCore s.turn.consume (s.select n) := by
    rw [State.turn_selCall h]
    exact (State.consume_sameCore _).trans ((State.setResult_sameCore _ _).trans (s.consume_sameCore.select n))
  rw [State.turn_wrCall hwr]
  refine ⟨(State.setResult_sameCore _ _).trans (hcore.write v), ?_, ?_⟩
  · simp [State.write, hwr]
  · simp [State.write, State.turn_selCall h]

/-- The turns of these calls are RESTORE's replay, and nothing is refused. -/
theorem State.turns_replayCalls (bytes : List Byte) {i : Nat} {s : State} {rest : List HostCall}
    (h : s.pending = replayCalls i bytes ++ rest) :
    SameCore (State.turns (replayCalls i bytes).length s) (State.replay i bytes s) ∧
    (State.turns (replayCalls i bytes).length s).pending = rest ∧
    (State.turns (replayCalls i bytes).length s).refused = s.refused := by
  induction bytes generalizing i s with
  | nil => exact ⟨⟨rfl, rfl, rfl, rfl, rfl⟩, h, rfl⟩
  | cons b bytes ih =>
    obtain ⟨hcore, hpending, hrefused⟩ := State.turn_turn_selWr h
    obtain ⟨hcores, hpendings, hrefuseds⟩ := ih hpending
    exact ⟨hcores.trans (hcore.replay (i + 1) bytes), hpendings, hrefuseds.trans hrefused⟩

/-- What the turns of an expansion leave (R83). -/
theorem State.turns_expand (p : Pseudo) (s : State) (rest : List HostCall) :
    let t := State.turns p.expand.length { s with pending := p.expand ++ rest }
    SameCore t (State.replay (firstIndex p) (bytesWritten p) s) ∧ t.pending = rest ∧ t.refused = s.refused := by
  rw [expand_eq_replayCalls]
  set u : State := { s with pending := replayCalls (firstIndex p) (bytesWritten p) ++ rest }
  have hcall : SameCore u s := ⟨rfl, rfl, rfl, rfl, rfl⟩
  obtain ⟨hcore, hhost⟩ := State.turns_replayCalls (bytesWritten p) (s := u) rfl
  exact ⟨hcore.trans (hcall.replay _ _), hhost⟩

/-! The replay of one register, of a tone pair and of the envelope's three. -/

/-- One pass of the replay at an index in range (R241). -/
theorem State.replay_cons {i : Nat} (hi : i < 16) (b : Byte) (bytes : List Byte) (s : State) :
    State.replay i (b :: bytes) s =
      State.replay (i + 1) bytes (State.writeAt ⟨i, hi⟩ b { s with sel := ⟨i, hi⟩ }) := by
  rw [State.replay]
  exact congrArg (State.replay (i + 1) bytes) (State.select_write ⟨i, hi⟩ b s)

/-- The replay of one byte stores it and leaves its index selected. -/
theorem State.replay_single {i : Nat} (hi : i < 16) (v : Byte) (s : State) :
    (State.replay i [v] s).sel.val = i ∧ (State.replay i [v] s).regs = s.regs.set i v hi := by
  rw [State.replay_cons hi, State.replay, State.writeAt_sel, State.writeAt_regs]
  exact ⟨rfl, rfl⟩

/-- `TONE c, f` by its two bytes (R83, R177). -/
theorem State.replay_tonePair (c : Chan) (fine coarse : Byte) (s : State) :
    let t := State.replay (2 * c.val) [fine, coarse] s
    t.sel.val = 2 * c.val + 1 ∧ t.tone = s.tone.set c.val ⟨toneDivisor fine coarse, 0⟩ ∧
    t.noise = s.noise ∧ t.env = s.env := by
  have hfine : 2 * c.val < 16 := by omega
  have hcoarse : 2 * c.val + 1 < 16 := by omega
  rw [State.replay_cons hfine, State.replay_cons hcoarse, State.replay]
  refine ⟨?_, ?_, ?_, ?_⟩
  · rw [State.writeAt_sel]
  · rw [State.writeAt_tone (c := c) (.inr rfl), Tone.setFrequency_toneFC]
    simp only [State.writeAt_tone (i := ⟨_, hfine⟩) (c := c) (.inl rfl)]
    simp
  · rw [State.writeAt_noise_of_ne, State.writeAt_noise_of_ne]
    all_goals dsimp only; omega
  · rw [State.writeAt_env_of_ne, State.writeAt_env_of_ne]
    all_goals dsimp only; omega

/-- `ENVF f, s` by its three bytes (R83, R179). -/
theorem State.replay_envelope (fine coarse shapeByte : Byte) (s : State) :
    let t := State.replay 11 [fine, coarse, shapeByte] s
    t.sel = 13 ∧ t.env = envRestarted fine coarse shapeByte ∧ t.tone = s.tone ∧ t.noise = s.noise := by
  rw [State.replay_cons (i := 11) (by decide), State.replay_cons (i := 12) (by decide),
    State.replay_cons (i := 13) (by decide), State.replay]
  refine ⟨State.writeAt_sel .., ?_, ?_, ?_⟩
  · rw [State.writeAt_env, if_pos (.inr (.inr rfl)), Env.setFreqShape_envFC]
    simp
  · simp [State.writeAt_tone_of_le]
  · simp [State.writeAt_noise_of_ne]

/-- `NOISEF f` by its byte (R83, R178). -/
theorem State.replay_noise (v : Byte) (s : State) :
    (State.replay 6 [v] s).noise = { s.noise with divisor := noiseDivisor v } := by
  rw [State.replay_cons (i := 6) (by decide), State.replay, State.writeAt_noise, if_pos rfl, Noise.setFrequency_noiseFC]
  simp

/-! The bytes of a pseudo-transaction's operand (R83). -/

theorem toneDivisor_bytes (f : BitVec 12) :
    toneDivisor (f.extractLsb' 0 8) ((f.extractLsb' 8 4).setWidth 8) = BitVec.ofNat 32 (32 * max f.toNat 1) := by
  have hf : (f.extractLsb' 0 8).toNat + 256 * (((f.extractLsb' 8 4).setWidth 8).toNat % 16) = f.toNat := by
    have := f.isLt
    simp only [BitVec.extractLsb'_toNat, BitVec.toNat_setWidth, Nat.shiftRight_eq_div_pow]
    omega
  rw [toneDivisor, hf]

theorem noiseDivisor_byte (f : BitVec 5) : noiseDivisor (f.setWidth 8) = BitVec.ofNat 32 (32 * max f.toNat 1) := by
  have hf : (f.setWidth 8).toNat % 32 = f.toNat := by
    have := f.isLt
    rw [BitVec.toNat_setWidth]
    omega
  rw [noiseDivisor, hf]

theorem lowByte_eq (f : BitVec 16) : f.extractLsb' 0 8 = BitVec.ofNat 8 f.toNat := by
  rw [BitVec.ofNat_toNat, BitVec.setWidth_eq_extractLsb' (by decide)]

theorem highByte_eq (f : BitVec 16) : f.extractLsb' 8 8 = BitVec.ofNat 8 (f.toNat / 256) := by
  apply BitVec.eq_of_toNat_eq
  rw [BitVec.extractLsb'_toNat, Nat.shiftRight_eq_div_pow, BitVec.toNat_ofNat]

/-- Settles O52: the SEL of an index above 15 is a no-op, so the WR writes where `sel` stands. -/
theorem pseudoWriteAboveFifteen : Obligations.PseudoWriteAboveFifteen := by
  intro i v s rest hi
  obtain ⟨hcore, hpending, hrefused⟩ := State.turns_expand (.wrr i v) s rest
  have hreplay : State.replay (firstIndex (.wrr i v)) (bytesWritten (.wrr i v)) s = s.writeAt s.sel v := by
    simp [State.replay, firstIndex, bytesWritten, State.select_of_not_lt (Nat.not_lt.mpr hi), State.write]
  rw [hreplay] at hcore
  exact ⟨hcore.sel.trans (State.writeAt_sel ..), hcore.regs.trans (State.writeAt_regs ..), hpending, hrefused⟩

/-- Settles O51: the core is what RESTORE's replay of the bytes leaves (`State.turns_expand`), which each clause reads
off. -/
theorem pseudoTransactionEffects : Obligations.PseudoTransactionEffects := by
  intro s rest run
  have hrun (p : Pseudo) : SameCore (run p) (State.replay (firstIndex p) (bytesWritten p) s) :=
    (State.turns_expand p s rest).1
  refine ⟨fun p => (State.turns_expand p s rest).2, fun i v hi => ?_, fun c f => ?_, fun f => ?_, fun m => ?_,
    fun c v => ?_, fun f b => ?_⟩
  · have hindex : (Fin.ofNat 16 i.toNat).val = i.toNat := Nat.mod_eq_of_lt (by omega)
    rw [(hrun _).sel, (hrun _).regs]
    simp only [hindex]
    exact State.replay_single (i := i.toNat) (by omega) v s
  · obtain ⟨-, hsel, htone, hnoise, henv⟩ := hrun (.tone c f)
    rw [hsel, htone, hnoise, henv, ← toneDivisor_bytes]
    exact State.replay_tonePair c _ _ s
  · rw [(hrun _).sel, (hrun _).noise, ← noiseDivisor_byte]
    exact ⟨Fin.ext (State.replay_single (i := 6) (by decide) _ s).1, State.replay_noise _ s⟩
  · rw [(hrun _).sel, (hrun _).regs]
    obtain ⟨hsel, hregs⟩ := State.replay_single (i := 7) (by decide) m s
    exact ⟨Fin.ext hsel, hregs⟩
  · rw [(hrun _).sel, (hrun _).regs]
    exact State.replay_single (i := 8 + c.val) (by omega) v s
  · obtain ⟨-, hsel, htone, hnoise, henv⟩ := hrun (.envf f b)
    rw [hsel, htone, hnoise, henv, ← lowByte_eq, ← highByte_eq]
    exact State.replay_envelope _ _ b s

end Sys2Proof.Machine
end

section
/-! The family `40_tone_oscillator`: the reduction loop of R101, and advances one after the other. -/

namespace Sys2Proof.Machine

open Sys2Proof.Claims

/-- Settles O23: the loop makes one pass per period crossing. -/
theorem toneAdvanceIsReductionLoop : Obligations.ToneAdvanceIsReductionLoop := by
  intro g t hd
  refine ⟨crossings (g.phase.toNat + t) g.divisor.toNat, fun m hm => lt_of_lt_crossings hd hm, ?_, ?_,
    Tone.advance_divisor t g, decide_eq_true_iff⟩
  · rw [Tone.advance_phase t g hd]
    exact reducedPhase_add_crossings _ _
  · rw [Tone.advance_phase t g hd]
    exact reducedPhase_le hd

/-! Reducing in between changes neither the phase nor the number of crossings (R102). -/

/-- The loop's passes undone: from a phase that is not 0, any number of divisors added is reduced away again. -/
theorem reducedPhase_add_mul {p d : Nat} (hp : 0 < p) (n : Nat) : reducedPhase (p + n * d) d = reducedPhase p d := by
  have hpred : p + n * d - 1 = p - 1 + n * d := Nat.sub_add_comm hp
  unfold reducedPhase
  rw [if_neg (by omega), if_neg (by omega), hpred, Nat.add_mul_mod_self_right]

theorem crossings_add_mul {p d : Nat} (hp : 0 < p) (hd : 0 < d) (n : Nat) :
    crossings (p + n * d) d = crossings p d + n := by
  have hpred : p + n * d - 1 = p - 1 + n * d := Nat.sub_add_comm hp
  unfold crossings
  rw [hpred, Nat.add_mul_div_right _ _ hd]

/-- R101: only the phase 0 is left at 0, since the loop stops at the divisor. -/
theorem reducedPhase_pos {p : Nat} (hp : 0 < p) (d : Nat) : 0 < reducedPhase p d := by
  unfold reducedPhase
  rw [if_neg (by omega)]
  exact Nat.succ_pos _

/-- `b` more ticks after a reduction, or before it. -/
theorem add_eq_reducedPhase_add (p b d : Nat) : p + b = reducedPhase p d + b + crossings p d * d := by
  have := reducedPhase_add_crossings p d
  omega

theorem reducedPhase_reducedPhase_add (p b d : Nat) :
    reducedPhase (reducedPhase p d + b) d = reducedPhase (p + b) d := by
  rcases Nat.eq_zero_or_pos p with rfl | hp
  · rw [reducedPhase_of_le (Nat.zero_le d)]
  · have hpos := reducedPhase_pos hp d
    rw [add_eq_reducedPhase_add p b d, reducedPhase_add_mul (by omega)]

theorem crossings_add_crossings {d : Nat} (hd : 0 < d) (p b : Nat) :
    crossings p d + crossings (reducedPhase p d + b) d = crossings (p + b) d := by
  rcases Nat.eq_zero_or_pos p with rfl | hp
  · rw [reducedPhase_of_le (Nat.zero_le d), crossings_of_le (Nat.zero_le d), Nat.zero_add]
  · have hpos := reducedPhase_pos hp d
    rw [add_eq_reducedPhase_add p b d, crossings_add_mul (by omega) hd, Nat.add_comm]

/-! Each generator advanced by a and then by b: its phase is stored reduced, so the facts above apply to it. -/

theorem Tone.advance_advance (a b : Nat) {g : Tone} (hd : 0 < g.divisor.toNat) :
    (g.advance a).advance b = g.advance (a + b) := by
  simp only [Tone.advance, toNat_reducedPhase g.divisor hd, reducedPhase_reducedPhase_add, Nat.add_assoc]

/-- R122: the LFSR does not look at the phase. -/
theorem Noise.lfsrSteps_setPhase (n : Nat) (g : Noise) (p : U32) :
    Noise.lfsrSteps n { g with phase := p } = { Noise.lfsrSteps n g with phase := p } := by
  induction n generalizing g with
  | zero => rfl
  | succ n ih => exact ih g.lfsrStep

/-- R121: steps after an advance follow the steps of its crossings. -/
theorem Noise.lfsrSteps_advance (n t : Nat) (g : Noise) :
    Noise.lfsrSteps n (g.advance t) =
      { Noise.lfsrSteps (crossings (g.phase.toNat + t) g.divisor.toNat + n) g with phase := (g.advance t).phase } := by
  rw [Noise.lfsrSteps_add]
  exact Noise.lfsrSteps_setPhase n _ _

theorem Noise.advance_advance (a b : Nat) {g : Noise} (hd : 0 < g.divisor.toNat) :
    (g.advance a).advance b = g.advance (a + b) := by
  rw [Noise.advance, Noise.lfsrSteps_advance, Noise.advance_divisor, Noise.advance_phase a g hd,
    reducedPhase_reducedPhase_add, crossings_add_crossings hd, Nat.add_assoc]
  rfl

/-- R146: the second advance starts at the step modulo 16, in the block that the whole sixteens of the first lead to. -/
theorem Env.advance_advance (a b : Nat) {g : Env} (hd : 0 < g.divisor.toNat) :
    (g.advance a).advance b = g.advance (a + b) := by
  have hblocks (s m n : Nat) : (s + m) / 16 + ((s + m) % 16 + n) / 16 = (s + (m + n)) / 16 := by omega
  have hstep (s m n : Nat) : ((s + m) % 16 + n) % 16 = (s + (m + n)) % 16 := by omega
  simp only [Env.advance, toNat_reducedPhase g.divisor hd, reducedPhase_reducedPhase_add, ← blockAfter_add, hblocks,
    hstep, crossings_add_crossings hd, Nat.add_assoc]

/-- Settles O30, generator by generator: the reduction after the first advance loses no crossing. -/
theorem advanceComposes : Obligations.AdvanceComposes := fun a b =>
  ⟨fun _ => Tone.advance_advance a b, fun _ => Noise.advance_advance a b, fun _ hd _ => Env.advance_advance a b hd⟩

end Sys2Proof.Machine
end

section
/-! The family `41_noise_lfsr`: the LFSR step (R122), the reduction loop of R121, and what leaves the noise engine alone
(R126). -/

namespace Sys2Proof.Machine

open Sys2Proof.Claims

/-- Settles O25, from `Noise.lfsrStep_shift_getLsbD`: the feedback reaches bit 15 alone, and bit 16 would take bit 17,
which is past the register. -/
theorem lfsrStepBits : Obligations.LfsrStepBits := by
  intro g
  have hbit := g.lfsrStep_shift_getLsbD
  refine ⟨rfl, fun j hj => ?_, ?_, ?_, g.lfsrStep_divisor, g.lfsrStep_phase⟩
  · rw [hbit]
    simp [Nat.ne_of_lt hj]
  · rw [hbit]
    simp
  · rw [hbit]
    simp

/-- R101, R121, R143: a phase reduced without a loop is what the reduction loop ends in after one pass per crossing. -/
theorem reductionLoop_of_eq_reducedPhase {p d phase : Nat} (hd : 0 < d) (hphase : phase = reducedPhase p d) :
    (∀ m < crossings p d, d < p - m * d) ∧ phase + crossings p d * d = p ∧ phase ≤ d := by
  subst hphase
  exact ⟨fun _ hm => lt_of_lt_crossings hd hm, reducedPhase_add_crossings p d, reducedPhase_le hd⟩

/-- Settles O24: the loop makes one pass, and so one LFSR step, per period crossing. -/
theorem noiseAdvanceIsReductionLoop : Obligations.NoiseAdvanceIsReductionLoop := by
  intro g t hd
  obtain ⟨hpasses, hphase, hexit⟩ := reductionLoop_of_eq_reducedPhase hd (Noise.advance_phase t g hd)
  refine ⟨crossings (g.phase.toNat + t) g.divisor.toNat, hpasses, hphase, hexit, Noise.advance_divisor t g, ?_, ?_, rfl⟩
  · rw [Noise.advance_shift, Noise.lfsrSteps_eq_iterate]
  · rw [Noise.advance_level, Noise.lfsrSteps_eq_iterate]

/-! The noise engine left alone (R126). -/

/-- R78: a channel's noise path is enabled while its bit of register 7 is 0. -/
theorem noiseEn_iff (r : RegFile) (c : Chan) : noiseEn r c = true ↔ bitClear r 7 (3 + c.val) := by
  simp [noiseEn, bitClear, BitVec.getLsbD, Nat.testBit_eq_decide_div_mod_eq]

theorem noiseWanted_eq_false_iff (r : RegFile) : noiseWanted r = false ↔ noiseUnused r := by
  rw [noiseWanted, Bool.or_eq_false_iff, Bool.or_eq_false_iff]
  simp only [← Bool.not_eq_true, noiseEn_iff, and_assoc]
  rfl

/-- RESTORE is SELECTs and WRITEs (R241), so a fact that these two keep, it keeps. -/
theorem State.restore_keeps {P : State → Prop} (hselect : ∀ {s}, P s → ∀ n, P (s.select n))
    (hwrite : ∀ {s}, P s → ∀ i v, P (s.writeAt i v)) {s : State} (h : P s) (payload : List Byte) :
    P (s.restore payload) :=
  (State.restore_related (R := fun s t => s = t ∧ P s) (fun h => congrArg State.sel h.1)
    (fun ⟨heq, hs⟩ n => ⟨congrArg (State.select n) heq, hselect hs n⟩)
    (fun ⟨heq, hs⟩ i v => ⟨congrArg (State.writeAt i v) heq, hwrite hs i v⟩) ⟨rfl, h⟩ payload).2

/-- `t` has the noise engine of `s`, but for the divisor. -/
structure NoisePaused (s t : State) : Prop where
  phase : t.noise.phase = s.noise.phase
  shift : t.noise.shift = s.noise.shift
  level : t.noise.level = s.noise.level

namespace NoisePaused

variable {s t u : State}

theorem of_noise_eq (h : t.noise = s.noise) : NoisePaused s t :=
  ⟨congrArg Noise.phase h, congrArg Noise.shift h, congrArg Noise.level h⟩

theorem trans (hst : NoisePaused s t) (htu : NoisePaused t u) : NoisePaused s u :=
  ⟨htu.phase.trans hst.phase, htu.shift.trans hst.shift, htu.level.trans hst.level⟩

theorem select (n : Byte) (s : State) : NoisePaused s (s.select n) := of_noise_eq (s.select_noise n)

/-- R120 (D9): the one WRITE that reaches the noise engine sets its divisor. -/
theorem writeAt (i : RegIdx) (v : Byte) (s : State) : NoisePaused s (s.writeAt i v) := by
  by_cases hi : i.val = 6
  · have hnoise := s.writeAt_noise i v
    rw [if_pos hi] at hnoise
    constructor <;> rw [hnoise]
    · exact Noise.setFrequency_phase _ _
    · exact Noise.setFrequency_shift _ _
    · exact Noise.setFrequency_level _ _
  · exact of_noise_eq (State.writeAt_noise_of_ne hi v s)

theorem restore (payload : List Byte) (s : State) : NoisePaused s (s.restore payload) :=
  State.restore_keeps (fun h n => h.trans (select n _)) (fun h i v => h.trans (writeAt i v _)) (of_noise_eq rfl) payload

/-- R126, R212: an ADVANCE with no noise path enabled does not advance the noise engine. -/
theorem advanceGenerators (h : noiseUnused s.regs) (ticks : Nat) : NoisePaused s (s.advanceGenerators ticks) := by
  apply of_noise_eq
  rw [State.advanceGenerators_noise, (noiseWanted_eq_false_iff s.regs).mpr h]
  rfl

end NoisePaused

/-- Settles O35, row by row: READ and SNAPSHOT change the result alone, and so does what returns a result at the end of
the other rows. -/
theorem noisePausesWhileUnused : Obligations.NoisePausesWhileUnused := by
  intro i s t h hunused
  have hpaused : NoisePaused s t := by
    cases exec_next h with
    | sel n => exact (NoisePaused.select n s).trans (.of_noise_eq rfl)
    | write k v => exact (NoisePaused.writeAt k v s).trans (.of_noise_eq rfl)
    | read | snap => exact .of_noise_eq rfl
    | adv ticks => exact (NoisePaused.advanceGenerators (hunused ticks rfl) _).trans (.of_noise_eq rfl)
    | rst payload => exact (NoisePaused.restore payload s).trans (.of_noise_eq rfl)
  exact ⟨hpaused.phase, hpaused.shift, hpaused.level⟩

end Sys2Proof.Machine
end

section
/-! The family `42_envelope_fsm`: the tables of the shapes (R140, R141, R145), the reduction loop of R143, and the level
sequences of R148. -/

namespace Sys2Proof.Machine

open Sys2Proof.Claims

/-! The level (R145). -/

/-- `LEVEL(block, step)` as a number (R145). -/
def Block.levelAt : Block → Nat → Nat
  | .low, _ => 0
  | .high, _ => 15
  | .raise, step => step
  | .lower, step => 15 - step

/-- R145: up to step 15 the 4 bits of the level hold it. -/
theorem Env.level_toNat {g : Env} (h : g.step.val ≤ 15) : g.level.toNat = g.block.levelAt g.step.val := by
  unfold Env.level
  cases g.block with
  | low | high => rfl
  | raise | lower => exact Nat.mod_eq_of_lt (by omega)

/-- Settles O28: the shape byte counts by its low nibble alone, so its clause is the 16 entries of the table. -/
theorem envelopeTables : Obligations.EnvelopeTables := by
  refine ⟨fun b => ?_, fun shape => ?_, fun _ => ⟨rfl, rfl, rfl, rfl, rfl, rfl⟩, ⟨rfl, rfl, rfl, rfl⟩,
    fun g h => ?_⟩
  · dsimp only
    rw [← shapeCode_toNat b]
    generalize shapeCode b = code
    revert code
    decide
  · cases shape <;> rfl
  · rw [Env.level_toNat h]
    cases g.block <;> rfl

/-! The reduction loop (R143). -/

theorem envCrossing_of_step_eq {g : Env} (h : g.step.val = 15) :
    envCrossing g = { g with step := 0, block := nextBlock g.shape g.block } :=
  if_pos (congrArg (· + 1) h)

theorem envCrossing_of_step_lt {g : Env} (h : g.step.val < 15) :
    envCrossing g = { g with step := ⟨g.step.val + 1, by omega⟩ } := by
  have hstep : Fin.ofNat 17 (g.step.val + 1) = ⟨g.step.val + 1, by omega⟩ := Fin.ext (Nat.mod_eq_of_lt (by omega))
  rw [envCrossing, if_neg (by omega), hstep]

/-- The step and the block that `n` crossings leave, in the loop-free form of R146. -/
def Env.cross (n : Nat) (g : Env) : Env :=
  { g with
    step := ⟨(g.step.val + n) % 16, by omega⟩
    block := blockAfter g.shape ((g.step.val + n) / 16) g.block }

theorem Env.advance_eq_cross (t : Nat) (g : Env) :
    g.advance t =
      { g.cross (crossings (g.phase.toNat + t) g.divisor.toNat) with phase := (g.advance t).phase } := rfl

theorem Env.cross_zero {g : Env} (h : g.step.val ≤ 15) : g.cross 0 = g := by
  have hstep : (g.step.val + 0) % 16 = g.step.val := Nat.mod_eq_of_lt (by omega)
  have hblocks : (g.step.val + 0) / 16 = 0 := Nat.div_eq_of_lt (by omega)
  simp only [Env.cross, hstep, hblocks, blockAfter]

/-- R146: the next crossing changes the block where it takes the count of steps to a multiple of 16. -/
theorem Env.cross_succ (n : Nat) (g : Env) : g.cross (n + 1) = envCrossing (g.cross n) := by
  have hle : (g.step.val + n) % 16 ≤ 15 := by omega
  rcases hle.eq_or_lt with hlast | hlt
  · have hstep : (g.step.val + (n + 1)) % 16 = 0 := by omega
    have hblocks : (g.step.val + (n + 1)) / 16 = (g.step.val + n) / 16 + 1 := by omega
    rw [envCrossing_of_step_eq (g := g.cross n) hlast]
    simp only [Env.cross, hstep, hblocks, blockAfter_add, blockAfter]
    rfl
  · have hstep : (g.step.val + (n + 1)) % 16 = (g.step.val + n) % 16 + 1 := by omega
    have hblocks : (g.step.val + (n + 1)) / 16 = (g.step.val + n) / 16 := by omega
    rw [envCrossing_of_step_lt (g := g.cross n) hlt]
    simp only [Env.cross, hstep, hblocks]

theorem Env.cross_eq_iterate (n : Nat) {g : Env} (h : g.step.val ≤ 15) : g.cross n = envCrossing^[n] g := by
  induction n with
  | zero => exact Env.cross_zero h
  | succ n ih => rw [Env.cross_succ, ih, Function.iterate_succ_apply']

/-- Settles O27: the loop makes one pass, and so one change of step and block, per period crossing. -/
theorem envelopeAdvanceIsReductionLoop : Obligations.EnvelopeAdvanceIsReductionLoop := by
  intro g t hd hstep
  obtain ⟨hpasses, hphase, hexit⟩ := reductionLoop_of_eq_reducedPhase hd (Env.advance_phase t g hd)
  refine ⟨crossings (g.phase.toNat + t) g.divisor.toNat, hpasses, hphase, hexit, ?_⟩
  rw [← Env.cross_eq_iterate _ hstep]
  exact Env.advance_eq_cross t g

/-! The block after `n` times 16 steps, by the continuation policy (R141). -/

theorem blockAfter_of_fixed {shape : Shape} {b : Block} (h : nextBlock shape b = b) (n : Nat) :
    blockAfter shape n b = b := by
  rw [blockAfter_eq_iterate, Function.iterate_fixed h]

/-- A one-shot shape settles in its first change of block. -/
theorem blockAfter_of_settles {shape : Shape} {settled : Block} (h : ∀ b, nextBlock shape b = settled) (n : Nat)
    (b : Block) : blockAfter shape n b = if n = 0 then b else settled := by
  cases n with
  | zero => rfl
  | succ n => rw [blockAfter, h, blockAfter_of_fixed (h settled), if_neg n.succ_ne_zero]

/-- An alternating shape is back in its block after every second change. -/
theorem blockAfter_of_alternates {shape : Shape} {a b : Block} (hab : nextBlock shape a = b)
    (hba : nextBlock shape b = a) (n : Nat) : blockAfter shape n a = if n % 2 = 0 then a else b := by
  have hperiodic : Function.IsPeriodicPt (nextBlock shape) 2 a := (congrArg (nextBlock shape) hab).trans hba
  rw [blockAfter_eq_iterate, ← hperiodic.iterate_mod_apply]
  rcases Nat.mod_two_eq_zero_or_one n with heven | hodd
  · rw [heven]
    rfl
  · rw [hodd]
    exact hab

/-! The level after `k` crossings, by the kind of the shape (R141, R148). -/

/-- `L(k)` of a shape that starts in block `b` (R146, R148). -/
def Shape.levelFrom (shape : Shape) (b : Block) (k : Nat) : Nat := (blockAfter shape (k / 16) b).levelAt (k % 16)

theorem Shape.levelFrom_of_loops {shape : Shape} {b : Block} (h : nextBlock shape b = b) (k : Nat) :
    shape.levelFrom b k = b.levelAt (k % 16) :=
  congrArg (Block.levelAt · (k % 16)) (blockAfter_of_fixed h _)

theorem Shape.levelFrom_of_settles {shape : Shape} {settled : Block} (h : ∀ b, nextBlock shape b = settled)
    (b : Block) (k : Nat) : shape.levelFrom b k = if k ≤ 15 then b.levelAt k else settled.levelAt (k % 16) := by
  rw [Shape.levelFrom, blockAfter_of_settles h]
  by_cases hk : k ≤ 15
  · rw [if_pos (by omega), if_pos hk, Nat.mod_eq_of_lt (by omega)]
  · rw [if_neg (by omega), if_neg hk]

theorem Shape.levelFrom_of_alternates {shape : Shape} {a b : Block} (hab : nextBlock shape a = b)
    (hba : nextBlock shape b = a) (k : Nat) :
    shape.levelFrom a k = if k % 32 ≤ 15 then a.levelAt (k % 32) else b.levelAt (k % 32 - 16) := by
  rw [Shape.levelFrom, blockAfter_of_alternates hab hba]
  by_cases hk : k % 32 ≤ 15
  · have hstep : k % 16 = k % 32 := by omega
    rw [if_pos (by omega), if_pos hk, hstep]
  · have hstep : k % 16 = k % 32 - 16 := by omega
    rw [if_neg (by omega), if_neg hk, hstep]

/-- R148: the sequence of every shape. -/
theorem Shape.levelFrom_initialBlock (shape : Shape) (k : Nat) :
    shape.levelFrom (initialBlock shape) k = levelSequence shape k := by
  cases shape with
  | lowerHoldLow | raiseHoldLow => exact Shape.levelFrom_of_settles (settled := .low) (fun _ => rfl) _ k
  | lowerHoldHigh | raiseHoldHigh => exact Shape.levelFrom_of_settles (settled := .high) (fun _ => rfl) _ k
  | lowerLoop | raiseLoop => exact Shape.levelFrom_of_loops rfl k
  | lowerRaiseLoop => exact Shape.levelFrom_of_alternates rfl rfl k
  | raiseLowerLoop =>
    refine (Shape.levelFrom_of_alternates (b := .lower) rfl rfl k).trans (ite_congr rfl (fun _ => rfl) fun hlate => ?_)
    show 15 - (k % 32 - 16) = 31 - k % 32
    omega

/-- R142, R146: after `set_freq_shape` the step and the block count crossings from 0. -/
theorem Env.level_setFreqShape_advance {f : Nat} (hf : f ≤ 65535) (b : Byte) (t : Nat) :
    ((Env.setFreqShape f b).advance t).level.toNat =
      (shapeOfCode (shapeCode b)).levelFrom (initialBlock (shapeOfCode (shapeCode b))) ((t - 1) / (32 * f)) := by
  have hcrossings : (Env.setFreqShape f b).step.val + crossings ((Env.setFreqShape f b).phase.toNat + t)
      (Env.setFreqShape f b).divisor.toNat = (t - 1) / (32 * f) := by
    rw [Env.setFreqShape_step, Env.setFreqShape_phase, Env.setFreqShape_divisor, toNat_divisor_of_le hf, crossings]
    simp
  have hstep := Env.advance_step t (Env.setFreqShape f b)
  have hblock := Env.advance_block t (Env.setFreqShape f b)
  rw [hcrossings] at hstep hblock
  rw [Env.level_toNat (by omega), hstep, hblock]
  rfl

/-- Settles O29: the crossings of one advance from 0, read off the shape's sequence (`Shape.levelFrom_initialBlock`). -/
theorem envelopeLevelSequence : Obligations.EnvelopeLevelSequence := by
  intro f b t _ hf
  rw [Env.level_setFreqShape_advance hf, Shape.levelFrom_initialBlock]

end Sys2Proof.Machine
end

section
/-! The family `43_register_file`: SELECT (R170), READ (R173, R174) and WRITE (R176 to R181), as rows and as words. -/

namespace Sys2Proof

/-- R70, R71: the word of a byte operand, as the number that the claims write down. -/
theorem ofNat_byteWord (kind v : Byte) :
    BitVec.ofNat 64 (kind.toNat * 2 ^ 56 + v.toNat) = opndWord kind (zext32 v) := by
  have hkind := kind.isLt
  have hv := v.isLt
  apply BitVec.eq_of_toNat_eq
  rw [opndWord_toNat, zext32_toNat, BitVec.toNat_ofNat, Nat.mod_eq_of_lt (by omega)]

end Sys2Proof

namespace Sys2Proof.Machine

open Sys2Proof.Claims

/-! SELECT. -/

/-- R170: SELECT as an update of the latch alone. -/
theorem State.select_eq (n : Byte) (s : State) :
    s.select n = { s with sel := if n.toNat ≤ 15 then Fin.ofNat 16 n.toNat else s.sel } := by
  by_cases h : n.toNat < 16
  · have hindex : (⟨n.toNat, h⟩ : RegIdx) = Fin.ofNat 16 n.toNat := Fin.ext (Nat.mod_eq_of_lt h).symm
    rw [State.select_of_lt h, if_pos (Nat.le_of_lt_succ h), hindex]
  · rw [State.select_of_not_lt h, if_neg (by omega)]

/-- Settles O13: the number is the table's word, and the row's meaning is `State.select_eq`. -/
theorem selectResult : Obligations.SelectResult := by
  intro n s k payload
  constructor
  · exact (congrArg (decode k · payload) (ofNat_byteWord 0x01#8 n)).trans (decode_selWord k n payload)
  · rw [(Completes.sel n s).exec, State.select_eq]
    rfl

/-! READ. -/

section
variable {k : RegIdx} (s : State)

/-- R174: the READ row of an index with this mask. -/
theorem exec_read_of_readMask {m : Byte} (h : readMask k = m) :
    exec (decodeRead k) s = .next { s with result := .byte (s.regs[k] &&& m) } := by
  rw [exec_decodeRead, State.readAt, h]
  rfl

/-- R174: the READ row of an index whose mask hides nothing. -/
theorem exec_read_of_readMask_full (h : readMask k = 0xFF) :
    exec (decodeRead k) s = .next { s with result := .byte s.regs[k] } := by
  rw [exec_read_of_readMask s h, show (0xFF : Byte) = BitVec.allOnes 8 from rfl, BitVec.and_allOnes]

end

/-- Settles O14, with the mask of each index read off the table of R174. -/
theorem readMaskOfEveryIndex : Obligations.ReadMaskOfEveryIndex := fun s =>
  ⟨exec_read_of_readMask_full (k := 0) s rfl, exec_read_of_readMask (k := 1) s rfl,
    exec_read_of_readMask_full (k := 2) s rfl, exec_read_of_readMask (k := 3) s rfl,
    exec_read_of_readMask_full (k := 4) s rfl, exec_read_of_readMask (k := 5) s rfl,
    exec_read_of_readMask (k := 6) s rfl, exec_read_of_readMask_full (k := 7) s rfl,
    exec_read_of_readMask (k := 8) s rfl, exec_read_of_readMask (k := 9) s rfl,
    exec_read_of_readMask (k := 10) s rfl, exec_read_of_readMask_full (k := 11) s rfl,
    exec_read_of_readMask_full (k := 12) s rfl, exec_read_of_readMask (k := 13) s rfl,
    exec_read_of_readMask_full (k := 14) s rfl, exec_read_of_readMask_full (k := 15) s rfl⟩

/-- Settles O15: the word is the table's, and decodes to the row of the selected index. -/
theorem readAtSelection : Obligations.ReadAtSelection := by
  intro s payload rest hpending
  have hdecode : decode s.sel 0x0300000000000000 payload = decodeRead s.sel := decode_rdWord s.sel payload
  rw [stepRunsDecodedTransaction s _ rest _ hpending rfl hdecode]
  exact exec_read_of_readMask _ rfl

/-! WRITE, by what it does beside storing the byte (R80). -/

section
variable {k : RegIdx} (v : Byte) (s : State)

/-- R176, R181: the WRITE row of an index with this effect stores first. -/
theorem exec_write_of_writeEffect {e : WriteEffect} (h : writeEffect k = e) :
    exec (decodeWrite k v) s = .next (((s.setReg k v).applyEffect e).setResult .nothing) := by
  rw [exec_decodeWrite, State.writeAt, h]

/-- R180. -/
theorem exec_write_storeOnly (h : writeEffect k = .storeOnly) :
    exec (decodeWrite k v) s = .next { s with regs := s.regs.set k.val v k.isLt, result := .nothing } :=
  exec_write_of_writeEffect v s h

/-- R177: whichever register of the pair was written, both are read, as they stand after the store. -/
theorem exec_write_restartTone {c : Chan} (h : writeEffect k = .restartTone c) :
    let r := s.regs.set k.val v k.isLt
    exec (decodeWrite k v) s = .next { s with
      regs := r, tone := s.tone.set c.val ⟨toneDivisor r[2 * c.val] r[2 * c.val + 1], 0⟩, result := .nothing } := by
  rw [exec_write_of_writeEffect v s h, State.applyEffect, Tone.setFrequency_toneFC]
  rfl

/-- R179: pair and shape are read as they stand after the store. -/
theorem exec_write_restartEnv (h : writeEffect k = .restartEnv) :
    let r := s.regs.set k.val v k.isLt
    exec (decodeWrite k v) s = .next { s with
      regs := r, env := envRestarted r[11] r[12] r[13], result := .nothing } := by
  rw [exec_write_of_writeEffect v s h, State.applyEffect, Env.setFreqShape_envFC]
  rfl

end

/-- Settles O19, with the effect of each index read off the table of R80. -/
theorem writeStoreOnly : Obligations.WriteStoreOnly := fun v s =>
  ⟨exec_write_storeOnly (k := 7) v s rfl, exec_write_storeOnly (k := 8) v s rfl,
    exec_write_storeOnly (k := 9) v s rfl, exec_write_storeOnly (k := 10) v s rfl,
    exec_write_storeOnly (k := 14) v s rfl, exec_write_storeOnly (k := 15) v s rfl⟩

/-- R177: a WRITE to the fine register of a tone pair. -/
theorem exec_write_toneFine (c : Chan) (v : Byte) (s : State) :
    exec (decodeWrite ⟨2 * c.val, by omega⟩ v) s = .next { s with
      regs := s.regs.set (2 * c.val) v
      tone := s.tone.set c.val ⟨toneDivisor v s.regs[2 * c.val + 1], 0⟩
      result := .nothing } := by
  rw [exec_write_restartTone v s ((writeEffect_eq_restartTone_iff _ c).mpr (.inl rfl))]
  simp

/-- R177: a WRITE to the coarse register of a tone pair. -/
theorem exec_write_toneCoarse (c : Chan) (v : Byte) (s : State) :
    exec (decodeWrite ⟨2 * c.val + 1, by omega⟩ v) s = .next { s with
      regs := s.regs.set (2 * c.val + 1) v
      tone := s.tone.set c.val ⟨toneDivisor s.regs[2 * c.val] v, 0⟩
      result := .nothing } := by
  rw [exec_write_restartTone v s ((writeEffect_eq_restartTone_iff _ c).mpr (.inr rfl))]
  simp

/-- Settles O16: the fine and the coarse register of each of the three pairs. -/
theorem writeTonePair : Obligations.WriteTonePair := fun v s =>
  ⟨exec_write_toneFine 0 v s, exec_write_toneCoarse 0 v s, exec_write_toneFine 1 v s, exec_write_toneCoarse 1 v s,
    exec_write_toneFine 2 v s, exec_write_toneCoarse 2 v s⟩

/-- Settles O17: the engine keeps all but its divisor (D9), which register 6 gives as it stands after the store. -/
theorem writeNoiseFrequency : Obligations.WriteNoiseFrequency := by
  intro v s
  have hstored : (s.setReg 6 v).regs[6] = v := by simp
  have hrow := exec_write_of_writeEffect (k := 6) v s (e := .setNoise) rfl
  rw [State.applyEffect, Noise.setFrequency_noiseFC, hstored] at hrow
  exact hrow

/-- Settles O18: of the three registers the restart reads, one holds the byte and the other two are as before. -/
theorem writeEnvelope : Obligations.WriteEnvelope := by
  intro v s
  refine ⟨(exec_write_restartEnv (k := 11) v s rfl).trans ?_, (exec_write_restartEnv (k := 12) v s rfl).trans ?_,
    (exec_write_restartEnv (k := 13) v s rfl).trans ?_⟩
  all_goals simp

/-- Which tone a WRITE restarts, by its index (R177). -/
theorem State.writeAt_tone_eq_ite (i : RegIdx) (v : Byte) (s : State) :
    (s.writeAt i v).tone =
      if i.val = 0 ∨ i.val = 1 then s.tone.set 0 (Tone.setFrequency (toneFC (s.writeAt i v).regs 0))
      else if i.val = 2 ∨ i.val = 3 then s.tone.set 1 (Tone.setFrequency (toneFC (s.writeAt i v).regs 1))
      else if i.val = 4 ∨ i.val = 5 then s.tone.set 2 (Tone.setFrequency (toneFC (s.writeAt i v).regs 2))
      else s.tone := by
  split_ifs with hA hB hC
  · exact State.writeAt_tone (c := 0) hA v s
  · exact State.writeAt_tone (c := 1) hB v s
  · exact State.writeAt_tone (c := 2) hC v s
  · exact State.writeAt_tone_of_le (by omega) v s

/-- Settles O20: the number is the table's word, which runs the WRITE at `sel`; the clauses are what that leaves. -/
theorem writeAtSelection : Obligations.WriteAtSelection := by
  intro v s payload rest hpending
  have hdecode : decode s.sel (BitVec.ofNat 64 (0x0200000000000000 + v.toNat)) payload = decodeWrite s.sel v :=
    (congrArg (decode s.sel · payload) (ofNat_byteWord 0x02#8 v)).trans (decode_wrWord s.sel v payload)
  have hstep : step s = .next ((s.consume.writeAt s.sel v).setResult .nothing) := by
    rw [stepRunsDecodedTransaction s _ rest _ hpending rfl hdecode, ← State.consume_of_pending hpending,
      exec_decodeWrite]
  exact ⟨_, hstep, State.writeAt_regs .., State.writeAt_tone_eq_ite .., State.writeAt_noise .., State.writeAt_env ..,
    State.writeAt_sel .., rfl, State.writeAt_refused ..⟩

end Sys2Proof.Machine
end

section
/-! The family `44_mixer_volume`: the mixer (R213), the volume table (R214, R215), the sample (R216), and what an
ADVANCE moves (R210 to R212). -/

namespace Sys2Proof.Machine

open Sys2Proof.Claims

/-! The tables. -/

/-- Settles O31: the rows of the truth table are the equations of `combined`, and the 16 volumes are looked up. -/
theorem mixerAndVolumeTables : Obligations.MixerAndVolumeTables :=
  ⟨fun _ _ => ⟨rfl, rfl, rfl, rfl⟩, by decide⟩

/-! What one channel adds. -/

/-- R213, row by row: a channel is heard unless an enabled path's bit is false. -/
theorem combined_iff (toneEnabled noiseEnabled toneBit noiseBit : Bool) :
    combined toneEnabled noiseEnabled toneBit noiseBit = true ↔
      (toneEnabled = true → toneBit = true) ∧ (noiseEnabled = true → noiseBit = true) := by
  cases toneEnabled <;> cases noiseEnabled <;> simp [combined]

section
variable (r : RegFile) (c : Chan) (toneBit noiseBit : Bool) (level : BitVec 4)

/-- R78: a channel's tone path is enabled while its bit of register 7 is 0. -/
theorem toneEn_iff : toneEn r c = true ↔ bitClear r 7 c.val := by
  simp [toneEn, bitClear, BitVec.getLsbD, Nat.testBit_eq_decide_div_mod_eq]

/-- R79: the envelope drives a channel while bit 4 of its volume register is 1. -/
theorem volEnv_iff : volEnv r c = true ↔ r[8 + c.val].toNat / 16 % 2 = 1 := by
  simp [volEnv, BitVec.getLsbD, Nat.testBit_eq_decide_div_mod_eq]

theorem volFixed_eq_ofNat : volFixed r c = BitVec.ofNat 4 (r[8 + c.val].toNat % 16) :=
  BitVec.eq_of_toNat_eq (by rw [volFixed_toNat, BitVec.toNat_ofNat, Nat.mod_mod])

/-- R213 to R215: the enables, the selection and the fixed volume, read off the register bits. -/
theorem channelTerm_eq_channelAdds :
    channelTerm r c toneBit noiseBit level = channelAdds r c toneBit noiseBit level := by
  simp only [channelTerm, volumeIndex, channelAdds, combined_iff, toneEn_iff, noiseEn_iff, volEnv_iff,
    volFixed_eq_ofNat]

theorem channelTerm_le : channelTerm r c toneBit noiseBit level ≤ 8192 := by
  unfold channelTerm
  split
  · exact volume_le _
  · exact Nat.zero_le _

end

/-- R213: a disabled noise path hides the noise bit. -/
theorem channelTerm_of_noiseEn_eq_false {r : RegFile} {c : Chan} (h : noiseEn r c = false)
    (toneBit noiseBit noiseBit' : Bool) (level : BitVec 4) :
    channelTerm r c toneBit noiseBit level = channelTerm r c toneBit noiseBit' level := by
  simp only [channelTerm, combined_iff, h, Bool.false_eq_true, false_imp_iff]

/-- R78: while the noise engine is unused, no channel's noise path is enabled. -/
theorem noiseEn_of_noiseUnused {r : RegFile} (h : noiseUnused r) (c : Chan) : noiseEn r c = false := by
  obtain ⟨hA, hB, hC⟩ := h
  rw [← Bool.not_eq_true, noiseEn_iff]
  fin_cases c
  · exact hA
  · exact hB
  · exact hC

/-! The sum over the channels (R216). -/

theorem State.mix_eq_channelAdds (s : State) :
    s.mix = channelAdds s.regs 0 s.tone[0].bit s.noise.level s.env.level +
      channelAdds s.regs 1 s.tone[1].bit s.noise.level s.env.level +
      channelAdds s.regs 2 s.tone[2].bit s.noise.level s.env.level := by
  simp only [State.mix, channelTerm_eq_channelAdds, Noise.bit]

/-- A channel that is not heard adds 0, so the sum runs over the channels that are. -/
theorem State.mix_eq_sum (s : State) :
    s.mix = (((List.finRange 3).filter fun c =>
        combined (toneEn s.regs c) (noiseEn s.regs c) s.tone[c].bit s.noise.bit).map fun c =>
        volume (if volEnv s.regs c then s.env.level else volFixed s.regs c)).sum := by
  have hsum : s.mix = ((List.finRange 3).map fun c =>
      channelTerm s.regs c s.tone[c].bit s.noise.bit s.env.level).sum := Nat.add_assoc _ _ _
  rw [hsum]
  simp [channelTerm, volumeIndex, List.sum_map_ite]

/-- Three channels of at most 8192 each. -/
theorem State.mix_le (s : State) : s.mix ≤ 24576 := by
  have h (c : Chan) := channelTerm_le s.regs c s.tone[c].bit s.noise.bit s.env.level
  exact Nat.add_le_add (Nat.add_le_add (h 0) (h 1)) (h 2)

/-- The sum fits the 16 bits of a sample. -/
theorem State.toNat_sample (s : State) : (BitVec.ofNat 16 s.mix).toNat = s.mix := by
  have := s.mix_le
  rw [BitVec.toNat_ofNat]
  omega

/-- R217: with every noise path disabled the mixer does not see the noise engine. -/
theorem State.mix_eq_of_noiseUnused {s t : State} (h : noiseUnused s.regs) (hregs : s.regs = t.regs)
    (htone : s.tone = t.tone) (henv : s.env = t.env) : s.mix = t.mix := by
  have hchannel (c : Chan) := channelTerm_of_noiseEn_eq_false (noiseEn_of_noiseUnused h c) s.tone[c].bit s.noise.bit
    t.noise.bit s.env.level
  unfold State.mix
  rw [← hregs, ← htone, ← henv]
  exact congrArg₂ (· + ·) (congrArg₂ (· + ·) (hchannel 0) (hchannel 1)) (hchannel 2)

/-! ADVANCE. -/

/-- R212: every tone advances. -/
theorem State.advanceGenerators_tone_get (t : Nat) (s : State) (c : Chan) :
    (s.advanceGenerators t).tone[c] = s.tone[c].advance t := by
  fin_cases c <;> rfl

/-- R212: the noise engine advances while some channel uses it. -/
theorem State.advanceGenerators_noise_of_used {s : State} (h : ¬noiseUnused s.regs) (t : Nat) :
    (s.advanceGenerators t).noise = s.noise.advance t := by
  rw [← noiseWanted_eq_false_iff, Bool.not_eq_false] at h
  exact if_pos h

/-- R126, R212: it stands still while none does. -/
theorem State.advanceGenerators_noise_of_unused {s : State} (h : noiseUnused s.regs) (t : Nat) :
    (s.advanceGenerators t).noise = s.noise := by
  rw [State.advanceGenerators_noise, (noiseWanted_eq_false_iff s.regs).mpr h]
  rfl

/-- R210: up to `T_WF_MAX` an ADVANCE completes. -/
theorem exec_adv_of_le {t : U32} (h : t.toNat ≤ 0xFFDFFFFF) (s : State) :
    exec (.adv t) s = .next (s.advanceGenerators t.toNat).returnSample := (Completes.adv t s h).exec

/-- Settles O34: 0xFFDFFFFF is `T_WF_MAX`, above which `exec_adv_of_lt` refuses. -/
theorem advanceAboveBoundIsRefused : Obligations.AdvanceAboveBoundIsRefused := fun _ s h => exec_adv_of_lt h s

/-- Settles O32: the completion is `exec_adv_of_le`, the noise clauses are the two cases of R212, and the sample is the
sum of `State.mix_eq_channelAdds` after the generators have moved (D11). -/
theorem advanceResult : Obligations.AdvanceResult := fun _ s ht =>
  ⟨_, exec_adv_of_le ht s, fun h => State.advanceGenerators_noise_of_unused h _,
    fun h => State.advanceGenerators_noise_of_used h _, State.advanceGenerators_tone_get _ s, rfl,
    congrArg (HostResult.sample <| BitVec.ofNat 16 ·) (State.mix_eq_channelAdds _), rfl, rfl, rfl, rfl, rfl⟩

/-- Settles O33: the sample holds the sum as it is (`State.toNat_sample`), since three channels stay below 2^16. -/
theorem sampleIsTheSum : Obligations.SampleIsTheSum := by
  intro t s ht
  have hsample := (s.advanceGenerators t.toNat).toNat_sample
  exact ⟨_, _, exec_adv_of_le ht s, rfl, hsample.trans (State.mix_eq_sum _), hsample.trans_le (State.mix_le _)⟩

/-- Settles O36: both advances leave the same registers, tones and envelope, and the mixer sees nothing else
(`State.mix_eq_of_noiseUnused`). -/
theorem staleNoiseNeverHeard : Obligations.StaleNoiseNeverHeard := by
  intro t s g hunused ht
  have hmix : (s.advanceGenerators t.toNat).mix = ({ s with noise := g }.advanceGenerators t.toNat).mix :=
    State.mix_eq_of_noiseUnused hunused rfl rfl rfl
  exact ⟨_, _, exec_adv_of_le ht s, exec_adv_of_le ht _,
    congrArg (HostResult.sample <| BitVec.ofNat 16 ·) hmix, rfl, rfl⟩

end Sys2Proof.Machine
end

section
/-! The family `45_snapshot`: SNAPSHOT (R240), what RESTORE leaves (R241), and the round trip (R242). -/

namespace Sys2Proof.Machine

open Sys2Proof.Claims

/-! The blob. -/

theorem State.blob_zero (s : State) : (s.blob[0]).toNat = s.sel.val := by
  have hlt := s.sel.isLt
  change (BitVec.ofNat 8 s.sel.val).toNat = s.sel.val
  rw [BitVec.toNat_ofNat]
  omega

theorem State.blob_succ (s : State) {i : Nat} (hi : i < 16) : s.blob[i + 1] = s.regs[i] := by
  interval_cases i <;> rfl

/-- Settles O38: byte 0 holds `sel`, which fits it, and the other bytes are the registers. -/
theorem snapshotResult : Obligations.SnapshotResult := fun s =>
  ⟨s.blob, rfl, s.blob_zero, fun i => s.blob_succ i.isLt⟩

/-- Settles O40: the length check is the row's only one. -/
theorem restoreOfMalformedBlobIsRefused : Obligations.RestoreOfMalformedBlobIsRefused :=
  fun _ s h => exec_rst_of_length_ne h s

/-! The replay's registers and selection (R241). -/

theorem State.replay_regs_get (bytes : List Byte) {i : Nat} (h : i + bytes.length ≤ 16) (s : State) (k : RegIdx) :
    (State.replay i bytes s).regs[k] = if i ≤ k.val then bytes.getD (k.val - i) s.regs[k] else s.regs[k] := by
  induction bytes generalizing i s with
  | nil => simp [State.replay]
  | cons b bytes ih =>
    rw [List.length_cons] at h
    rw [State.replay_cons (by omega), ih (by omega)]
    obtain hlt | heq | hgt := Nat.lt_trichotomy i k.val
    · have hoffset : k.val - i = k.val - (i + 1) + 1 := by omega
      simp [hoffset, Nat.succ_le_of_lt hlt, Nat.le_of_lt hlt, Vector.getElem_set_ne, Nat.ne_of_lt hlt]
    · subst heq
      simp
    · simp [Nat.not_le.mpr hgt, Nat.not_le.mpr (Nat.lt_succ_of_lt hgt), Vector.getElem_set_ne, Nat.ne_of_gt hgt]

/-- The replay ends with its last index selected. -/
theorem State.replay_sel (bytes : List Byte) {i : Nat} (h : i + bytes.length < 16) (b : Byte) (s : State) :
    (State.replay i (b :: bytes) s).sel.val = i + bytes.length := by
  induction bytes generalizing i b s with
  | nil => exact (State.replay_single (by simpa using h) b s).1
  | cons b' bytes ih =>
    rw [List.length_cons] at h
    rw [State.replay_cons (by omega), ih (by omega), List.length_cons]
    omega

theorem State.restore_regs_get {payload : List Byte} (h : payload.length = 17) (s : State) {k : Nat} (hk : k < 16) :
    (s.restore payload).regs[k] = payload.getD (k + 1) 0 := by
  cases payload with
  | nil => cases h
  | cons b bytes =>
    rw [List.length_cons] at h
    have hlt : k < bytes.length := by omega
    have hget := State.replay_regs_get bytes (i := 0) (by omega) s ⟨k, hk⟩
    simpa [State.restore, hlt] using hget

theorem State.restore_sel {payload : List Byte} (h : payload.length = 17) (s : State) :
    (s.restore payload).sel.val =
      if (payload.getD 0 0).toNat ≤ 15 then (payload.getD 0 0).toNat else 15 := by
  match payload, h with
  | b :: b₀ :: bytes, h =>
    have hlength : bytes.length = 15 := by simpa using h
    have hsel := State.replay_sel bytes (i := 0) (by omega) b₀ s
    rw [State.restore, State.select_eq, List.getD_cons_zero]
    dsimp only
    split
    · exact Nat.mod_eq_of_lt (by omega)
    · omega

/-! Generators as the registers set them. -/

/-- Applying the effect would change nothing: the generator that it sets is what the registers make of it. -/
def State.InForce : WriteEffect → State → Prop
  | .restartTone c, s => s.tone[c] = Tone.setFrequency (toneFC s.regs c)
  | .setNoise, s => s.noise = s.noise.setFrequency (noiseFC s.regs)
  | .restartEnv, s => s.env = Env.setFreqShape (envFC s.regs) s.regs[13]
  | .storeOnly, _ => True

namespace State.InForce

variable {e : WriteEffect} {s t : State}

/-- The effects look at nothing but the registers and the generators. -/
theorem congr (h : s.InForce e) (hregs : t.regs = s.regs) (htone : t.tone = s.tone) (hnoise : t.noise = s.noise)
    (henv : t.env = s.env) : t.InForce e := by
  cases e with
  | restartTone | setNoise | restartEnv => simpa only [State.InForce, hregs, htone, hnoise, henv] using h
  | storeOnly => trivial

theorem select (h : s.InForce e) (n : Byte) : (s.select n).InForce e :=
  h.congr (s.select_regs n) (s.select_tone n) (s.select_noise n) (s.select_env n)

theorem applyEffect (e : WriteEffect) (s : State) : (s.applyEffect e).InForce e := by
  cases e with
  | restartTone c => simp [State.InForce, State.applyEffect]
  | setNoise => rfl
  | restartEnv => rfl
  | storeOnly => trivial

/-- A WRITE to a register of the generator applies the effect again, and any other leaves the generator and the
registers it looks at. -/
theorem writeAt (h : s.InForce e) (i : RegIdx) (v : Byte) : (s.writeAt i v).InForce e := by
  by_cases hi : Machine.writeEffect i = e
  · subst hi
    exact applyEffect _ _
  · cases e with
    | restartTone c =>
      rw [writeEffect_eq_restartTone_iff] at hi
      rw [State.InForce, State.writeAt_tone_get, if_neg hi, State.writeAt_regs, toneFC_set_of_ne _ _ _ hi]
      exact h
    | setNoise =>
      rw [writeEffect_eq_setNoise_iff] at hi
      rw [State.InForce, State.writeAt_noise_of_ne hi, State.writeAt_regs, noiseFC_set_of_ne _ _ _ hi]
      exact h
    | restartEnv =>
      rw [writeEffect_eq_restartEnv_iff] at hi
      obtain ⟨hfine, hcoarse, hshape⟩ : i.val ≠ 11 ∧ i.val ≠ 12 ∧ i.val ≠ 13 := by omega
      simp only [State.InForce, State.writeAt_env_of_ne hi, State.writeAt_regs, envFC_set_of_ne _ _ _ hfine hcoarse,
        Vector.getElem_set_ne _ _ hshape]
      exact h
    | storeOnly => trivial

/-- A replay that reaches an index with the effect brings it into force. -/
theorem replay {bytes : List Byte} {i : Nat} {k : RegIdx} (hbytes : i + bytes.length ≤ 16)
    (h : s.InForce (writeEffect k) ∨ i ≤ k.val ∧ k.val < i + bytes.length) :
    (State.replay i bytes s).InForce (writeEffect k) := by
  induction bytes generalizing i s with
  | nil =>
    obtain h | ⟨hlo, hhi⟩ := h
    · exact h
    · exact absurd hhi (Nat.not_lt.mpr hlo)
  | cons b bytes ih =>
    rw [List.length_cons] at hbytes h
    rw [State.replay_cons (by omega)]
    refine ih (by omega) ?_
    by_cases hki : k.val = i
    · subst hki
      exact .inl (applyEffect _ _)
    · refine h.imp (fun h => writeAt (h.congr rfl rfl rfl rfl) _ b) ?_
      omega

theorem restore {payload : List Byte} (h : payload.length = 17) (s : State) (k : RegIdx) :
    (s.restore payload).InForce (writeEffect k) := by
  cases payload with
  | nil => cases h
  | cons b bytes =>
    rw [List.length_cons] at h
    exact (replay (by omega) (.inr (by omega))).select b

/-- At construction every effect is in force (R42 to R44). -/
theorem construct (seed : BitVec 17) (e : WriteEffect) : (State.construct seed).InForce e := by
  cases e with
  | restartTone c => exact State.construct_tone_get seed c
  | setNoise => rfl
  | restartEnv => exact State.construct_env seed
  | storeOnly => trivial

end State.InForce

/-- The registers give the tones, the envelope and the noise divisor; the rest of the noise engine is that of `o`. -/
structure SetByRegisters (o s : State) : Prop where
  inForce : ∀ k : RegIdx, s.InForce (writeEffect k)
  noisePaused : NoisePaused o s

namespace SetByRegisters

variable {o s t : State}

theorem tone_get (h : SetByRegisters o s) (c : Chan) :
    s.tone[c] = ⟨toneDivisor s.regs[2 * c.val] s.regs[2 * c.val + 1], 0⟩ := by
  have hforce := h.inForce ⟨2 * c.val, by omega⟩
  rw [(writeEffect_eq_restartTone_iff _ c).mpr (.inl rfl)] at hforce
  exact hforce.trans (Tone.setFrequency_toneFC s.regs c)

theorem noise_eq (h : SetByRegisters o s) : s.noise = { o.noise with divisor := noiseDivisor s.regs[6] } := by
  have hforce : s.InForce .setNoise := h.inForce 6
  obtain ⟨hphase, hshift, hlevel⟩ := h.noisePaused
  rw [State.InForce, Noise.setFrequency_noiseFC, hphase, hshift, hlevel] at hforce
  exact hforce

theorem env_eq (h : SetByRegisters o s) : s.env = envRestarted s.regs[11] s.regs[12] s.regs[13] := by
  have hforce : s.InForce .restartEnv := h.inForce 11
  exact hforce.trans (Env.setFreqShape_envFC s.regs)

/-- So `sel` and the registers are all there is to know (R242). -/
theorem sameCore (hs : SetByRegisters o s) (ht : SetByRegisters o t) (hregs : s.regs = t.regs) (hsel : s.sel = t.sel) :
    SameCore s t where
  regs := hregs
  sel := hsel
  tone := by
    have hget (c : Chan) : s.tone[c] = t.tone[c] := by rw [hs.tone_get, ht.tone_get, hregs]
    exact Vector.ext fun c hc => hget ⟨c, hc⟩
  noise := by rw [hs.noise_eq, ht.noise_eq, hregs]
  env := by rw [hs.env_eq, ht.env_eq, hregs]

theorem construct (seed : BitVec 17) : SetByRegisters (State.construct seed) (State.construct seed) :=
  ⟨fun _ => State.InForce.construct seed _, .of_noise_eq rfl⟩

/-- R241: whatever RESTORE started from. -/
theorem restore {payload : List Byte} (h : payload.length = 17) (o : State) : SetByRegisters o (o.restore payload) :=
  ⟨State.InForce.restore h o, NoisePaused.restore payload o⟩

theorem select (h : SetByRegisters o s) (n : Byte) : SetByRegisters o (s.select n) :=
  ⟨fun k => (h.inForce k).select n, h.noisePaused.trans (NoisePaused.select n s)⟩

theorem writeAt (h : SetByRegisters o s) (i : RegIdx) (v : Byte) : SetByRegisters o (s.writeAt i v) :=
  ⟨fun k => (h.inForce k).writeAt i v, h.noisePaused.trans (NoisePaused.writeAt i v s)⟩

theorem of_sameCore (h : SetByRegisters o s) (hcore : SameCore t s) : SetByRegisters o t :=
  ⟨fun k => (h.inForce k).congr hcore.regs hcore.tone hcore.noise hcore.env,
    h.noisePaused.trans (.of_noise_eq hcore.noise)⟩

end SetByRegisters

/-- Settles O39: the replay stores bytes 1 to 16 in order and ends with index 15 selected, and each generator is the one
that the registers then give. -/
theorem restoreResult : Obligations.RestoreResult := by
  intro P s hlength
  have hcompletes := Completes.rst P s hlength
  have hset := SetByRegisters.restore hlength s
  have hreg (k : Nat) (hk : k < 16) : (s.restore P).regs[k] = P.getD (k + 1) 0 := State.restore_regs_get hlength s hk
  have htone := hset.tone_get
  have hnoise := hset.noise_eq
  have henv := hset.env_eq
  simp only [hreg] at htone hnoise henv
  obtain ⟨hpending, hpos, hrefused⟩ := hcompletes.host_unchanged
  exact ⟨_, hcompletes.exec, fun i => hreg i.val i.isLt, State.restore_sel hlength s, htone, hnoise, henv, rfl, hrefused,
    hpos, hpending⟩

/-! The round trip (R242). -/

/-- RESTORE of a state's blob gives its registers and `sel`. -/
theorem State.restore_blob (s t : State) :
    (t.restore s.blob.toList).regs = s.regs ∧ (t.restore s.blob.toList).sel = s.sel := by
  have hlength : s.blob.toList.length = 17 := s.blob.length_toList
  constructor
  · refine Vector.ext fun k hk => ?_
    rw [State.restore_regs_get hlength t hk, List.getD_eq_getElem _ _ (by omega), Vector.getElem_toList, s.blob_succ hk]
  · apply Fin.ext
    rw [State.restore_sel hlength]
    have hfirst : s.blob.toList.getD 0 0 = s.blob[0] := rfl
    rw [hfirst, State.blob_zero, if_pos (by omega)]

theorem State.turn_rdCall {s : State} {rest : List HostCall} (h : s.pending = { tw := 0x0300000000000000 } :: rest) :
    s.turn = s.consume.setResult (.byte (s.readAt s.sel)) := by
  apply State.turn_of_next
  rw [step_of_pending h]
  exact (congrArg (exec · s.consume) (decode_rdWord s.sel [])).trans (exec_decodeRead s.sel s.consume)

/-- A turn that takes a SELECT, WRITE or READ refuses nothing, and leaves the generators to the registers. -/
theorem SetByRegisters.turn {o s : State} {c : HostCall} {rest : List HostCall} (h : SetByRegisters o s)
    (hpending : s.pending = c :: rest) (hc : registerAccess c) :
    SetByRegisters o s.turn ∧ s.turn.pending = rest ∧ s.turn.refused = s.refused := by
  have hconsume : SetByRegisters o s.consume := h.of_sameCore s.consume_sameCore
  obtain ⟨n, rfl⟩ | ⟨v, rfl⟩ | rfl := hc
  · rw [State.turn_selCall hpending]
    exact ⟨(hconsume.select n).of_sameCore (State.setResult_sameCore _ _), by simp [hpending], by simp⟩
  · rw [State.turn_wrCall hpending]
    exact ⟨(hconsume.writeAt _ v).of_sameCore (State.setResult_sameCore _ _), by simp [State.write, hpending],
      by simp [State.write]⟩
  · rw [State.turn_rdCall hpending]
    exact ⟨hconsume.of_sameCore (State.setResult_sameCore _ _), by simp [hpending], rfl⟩

theorem SetByRegisters.turns {o s : State} (calls : List HostCall) (h : SetByRegisters o s)
    (hpending : s.pending = calls) (hcalls : ∀ c ∈ calls, registerAccess c) :
    SetByRegisters o (State.turns calls.length s) ∧ (State.turns calls.length s).refused = s.refused := by
  induction calls generalizing s with
  | nil => exact ⟨h, rfl⟩
  | cons c calls ih =>
    obtain ⟨hc, hrest⟩ := List.forall_mem_cons.mp hcalls
    obtain ⟨hturn, hleft, hrefused⟩ := h.turn hpending hc
    obtain ⟨hturns, hrefuseds⟩ := ih hturn hleft hrest
    exact ⟨hturns, hrefuseds.trans hrefused⟩

/-- Settles O41: both states are set by their registers on top of the same construction, and the blob carries the
registers and `sel`. -/
theorem snapshotRestoreRoundTrip : Obligations.SnapshotRestoreRoundTrip := by
  intro seed calls hcalls s
  have hstart : SetByRegisters (State.construct seed) { State.construct seed with pending := calls } :=
    (SetByRegisters.construct seed).of_sameCore ⟨rfl, rfl, rfl, rfl, rfl⟩
  obtain ⟨hset, hrefused⟩ := hstart.turns calls rfl hcalls
  have hlength : s.blob.toList.length = 17 := s.blob.length_toList
  obtain ⟨hregs, hsel⟩ := State.restore_blob s (State.construct seed)
  have hcore : SameCore ((State.construct seed).restore s.blob.toList) s :=
    (SetByRegisters.restore hlength _).sameCore hset hregs hsel
  exact ⟨hrefused, _, s.blob, _, (Completes.snap s).exec, rfl, (Completes.rst _ _ hlength).exec,
    (State.setResult_sameCore _ _).trans hcore⟩

end Sys2Proof.Machine
end

section
/-! The family `60_exceptions`: the idle step (R276), and what the sticky mark of R262 says of a run of turns. -/

namespace Sys2Proof.Machine

/-- Settles O8: the case of `step_cases` in which no call is pending. -/
theorem stepWithoutCallKeepsState : Obligations.StepWithoutCallKeepsState := by
  intro s hempty
  obtain ⟨-, hidle⟩ | ⟨c, rest, hpending, -⟩ := step_cases s
  · exact hidle
  · rw [hempty] at hpending
    cases hpending

/-! The sticky mark (R262). -/

/-- Only a refused transaction moves the mark. -/
theorem step_next_refused {s t : State} (h : step s = .next t) : t.refused = s.refused := by
  obtain ⟨-, rfl⟩ | ⟨c, rest, -, hcompletes⟩ := step_next h
  · rfl
  · obtain ⟨-, -, hkeeps⟩ := hcompletes.host_unchanged
    exact hkeeps

/-- All a turn can do: its step completes and keeps the mark, or is refused and marked. No step faults (R260). -/
theorem State.turn_cases (s : State) :
    (step s = .next s.turn ∧ s.turn.refused = s.refused) ∨ ∃ r, step s = .refused r ∧ s.turn = s.markRefused r := by
  cases h : step s with
  | next t =>
    rw [State.turn_of_next h]
    exact .inl ⟨rfl, step_next_refused h⟩
  | fault r => cases r
  | refused r => exact .inr ⟨r, rfl, State.turn_of_refused h⟩

/-- A mark that is set stays as it is for a turn: a later refusal does not replace it (log 5). -/
theorem State.turn_refused {s : State} {r : Refusal} (h : s.refused = some r) : s.turn.refused = some r := by
  obtain ⟨-, hkeeps⟩ | ⟨r', -, hmark⟩ := s.turn_cases
  · exact hkeeps.trans h
  · rw [hmark, State.markRefused_refused, h, Option.some_or]

/-- Settles O46, by induction on the number of turns (`State.turn_refused`). -/
theorem refusalMarkIsSticky : Obligations.RefusalMarkIsSticky := by
  intro n s r h
  induction n generalizing s with
  | zero => exact h
  | succ n ih => exact ih s.turn (State.turn_refused h)

/-! A run without a refusal (R262). -/

/-- A mark set before a run would still stand after it. -/
theorem SafeRun.refused_eq_none {n : Nat} {s : State} (h : SafeRun n s) : s.refused = none := by
  cases hmark : s.refused with
  | none => rfl
  | some r =>
    have hsticky := refusalMarkIsSticky n s r hmark
    rw [h] at hsticky
    cases hsticky

/-- The first turn of a run without a refusal is a step, since a refused one would leave a mark. -/
theorem SafeRun.step_eq_next_turn {n : Nat} {s : State} (h : SafeRun (n + 1) s) : step s = .next s.turn := by
  have hsafe : SafeRun n s.turn := h
  obtain ⟨hnext, -⟩ | ⟨r, -, hmark⟩ := s.turn_cases
  · exact hnext
  · have hnone := hsafe.refused_eq_none
    rw [hmark, State.markRefused_refused, Option.or_eq_none_iff] at hnone
    cases hnone.2

theorem run_succ_of_step_next {s t : State} (h : step s = .next t) (n : Nat) :
    Host.Core.run Sys2Proof.core (n + 1) s = Host.Core.run Sys2Proof.core n t := by
  have hcore : Sys2Proof.core.step s = .next t := h
  simp only [Host.Core.run, hcore]

/-- Settles O48, by induction on the number of turns: each is a step (`SafeRun.step_eq_next_turn`). -/
theorem safeRunIsARun : Obligations.SafeRunIsARun := by
  intro n s hsafe
  induction n generalizing s with
  | zero => rfl
  | succ n ih => exact (run_succ_of_step_next hsafe.step_eq_next_turn n).trans (ih s.turn hsafe)

end Sys2Proof.Machine
end

section
/-! The family `70_reset_and_hazards`: the silence before the first crossing (R292), and what a RESTORE of zeros leaves
of the state before it (R291). -/

namespace Sys2Proof.Machine

open Sys2Proof.Claims

/-! The first 32 ticks (R292). -/

/-- R121: the level stands until the accumulated phase passes the divisor. -/
theorem Noise.advance_level_of_le {t : Nat} {g : Noise} (h : g.phase.toNat + t ≤ g.divisor.toNat) :
    (g.advance t).level = g.level := by
  rw [Noise.advance_level, crossings_of_le h]
  rfl

/-- R213: an enabled noise path whose bit is false silences its channel. -/
theorem channelTerm_of_noise_low {r : RegFile} {c : Chan} (h : noiseEn r c = true) (toneBit : Bool) (level : BitVec 4) :
    channelTerm r c toneBit false level = 0 := by
  rw [channelTerm, if_neg]
  rw [combined_iff]
  exact fun hheard => Bool.false_ne_true (hheard.2 h)

theorem State.mix_of_noise_low {s : State} (hpaths : ∀ c, noiseEn s.regs c = true) (hlow : s.noise.level = false) :
    s.mix = 0 := by
  simp only [State.mix, Noise.bit, hlow, channelTerm_of_noise_low (hpaths _)]

/-- R40: register 7 is 0, so that every noise path is enabled. -/
theorem State.construct_noiseEn (seed : BitVec 17) (c : Chan) : noiseEn (State.construct seed).regs c = true := by
  simp [noiseEn, State.construct]

/-- Settles O3: the engine's phase does not pass its divisor of 32, so its level is still the false of construction
(D4), and the enabled noise paths silence every channel. -/
theorem constructionIsSilent : Obligations.ConstructionIsSilent := by
  intro seed t ht
  let s := State.construct seed
  have hpaths (c : Chan) : noiseEn s.regs c = true := State.construct_noiseEn seed c
  have hused : ¬noiseUnused s.regs := fun hunused =>
    Bool.false_ne_true ((noiseEn_of_noiseUnused hunused 0).symm.trans (hpaths 0))
  have hphase : s.noise.phase.toNat + t.toNat ≤ s.noise.divisor.toNat := (Nat.zero_add _).trans_le ht
  have hlow : (s.advanceGenerators t.toNat).noise.level = false := by
    rw [State.advanceGenerators_noise_of_used hused, Noise.advance_level_of_le hphase]
    rfl
  have hsilent : (s.advanceGenerators t.toNat).mix = 0 := State.mix_of_noise_low hpaths hlow
  exact ⟨_, exec_adv_of_le (by omega) s, congrArg (HostResult.sample <| BitVec.ofNat 16 ·) hsilent, hlow⟩

/-! RESTORE of zeros (R291). -/

theorem NoisePaused.symm {s t : State} (h : NoisePaused s t) : NoisePaused t s :=
  ⟨h.phase.symm, h.shift.symm, h.level.symm⟩

namespace SetByRegisters

variable {o p s t : State}

theorem tone_congr (hs : SetByRegisters o s) (ht : SetByRegisters p t) (hregs : s.regs = t.regs) : s.tone = t.tone := by
  have hget (c : Chan) : s.tone[c] = t.tone[c] := by rw [hs.tone_get, ht.tone_get, hregs]
  exact Vector.ext fun c hc => hget ⟨c, hc⟩

theorem env_congr (hs : SetByRegisters o s) (ht : SetByRegisters p t) (hregs : s.regs = t.regs) : s.env = t.env := by
  rw [hs.env_eq, ht.env_eq, hregs]

/-- What the registers do not set is the noise engine, but for its divisor. -/
theorem sameCore_iff_noisePaused (hs : SetByRegisters o s) (ht : SetByRegisters p t) (hregs : s.regs = t.regs)
    (hsel : s.sel = t.sel) : SameCore s t ↔ NoisePaused p o := by
  constructor
  · intro hcore
    exact ht.noisePaused.trans ((NoisePaused.of_noise_eq hcore.noise).trans hs.noisePaused.symm)
  · intro hpaused
    have hs' : SetByRegisters p s := ⟨hs.inForce, hpaused.trans hs.noisePaused⟩
    exact hs'.sameCore ht hregs hsel

end SetByRegisters

/-- R40, R41: the zero blob is the snapshot of a newly constructed controller. -/
theorem State.construct_blob (seed : BitVec 17) : (State.construct seed).blob.toList = List.replicate 17 0 := rfl

/-- Settles O42: the replay brings back the registers and `sel` of construction, so the tones, the envelope and the
noise divisor too; whether the states are equal is left to the rest of the noise engine. -/
theorem zeroBlobIsNotAReset : Obligations.ZeroBlobIsNotAReset := by
  intro s
  have hlength : (List.replicate 17 (0 : Byte)).length = 17 := List.length_replicate
  let t := (s.restore (List.replicate 17 0)).setResult .nothing
  have hset : SetByRegisters s t := (SetByRegisters.restore hlength s).of_sameCore (State.setResult_sameCore _ _)
  have hback (seed : BitVec 17) : t.regs = (State.construct seed).regs ∧ t.sel = (State.construct seed).sel := by
    have hblob := State.restore_blob (State.construct seed) s
    rwa [State.construct_blob] at hblob
  refine ⟨t, (Completes.rst _ s hlength).exec, ?_, fun seed => ?_⟩
  · rw [hset.noise_eq, (hback 0).1]
    rfl
  · obtain ⟨hregs, hsel⟩ := hback seed
    have hstart := SetByRegisters.construct seed
    refine ⟨hregs, hsel, hset.tone_congr hstart hregs, hset.env_congr hstart hregs, ?_⟩
    rw [hset.sameCore_iff_noisePaused hstart hregs hsel]
    exact ⟨fun h => ⟨h.phase, h.shift, h.level⟩, fun ⟨hphase, hshift, hlevel⟩ => ⟨hphase, hshift, hlevel⟩⟩

end Sys2Proof.Machine
end
